-- ==== Sys2Proof/Word.lean ====
section
/-! DEFINITION. Word types of the GK4206 and the three-phase triple its quantities come in. -/

namespace Sys2Proof

/-- One byte of a status block, a capture record or the configuration image (R179). -/
abbrev Byte := BitVec 8

/-- A 16-bit quantity. -/
abbrev Half := BitVec 16

/-- A 32-bit quantity: a record word, a data word, a frame number. -/
abbrev Word := BitVec 32

/-- One of the phases A, B and C (00 section 4.5). -/
inductive Phase where
  | a | b | c
  deriving DecidableEq, Repr

/-- One value for each phase. -/
structure Phases (α : Type) where
  a : α
  b : α
  c : α
  deriving DecidableEq, Repr

namespace Phases

variable {α β γ δ : Type}

/-- The value of one phase. -/
def get (x : Phases α) : Phase → α
  | .a => x.a
  | .b => x.b
  | .c => x.c

/-- The triple with one phase's value replaced. -/
def set (x : Phases α) (p : Phase) (v : α) : Phases α :=
  match p with
  | .a => { x with a := v }
  | .b => { x with b := v }
  | .c => { x with c := v }

/-- The same value on every phase. -/
def same (v : α) : Phases α := ⟨v, v, v⟩

/-- A function applied on each phase. -/
def map (f : α → β) (x : Phases α) : Phases β := ⟨f x.a, f x.b, f x.c⟩

/-- A function of two triples, phase by phase. -/
def map2 (f : α → β → γ) (x : Phases α) (y : Phases β) : Phases γ :=
  ⟨f x.a y.a, f x.b y.b, f x.c y.c⟩

/-- A function of three triples, phase by phase. -/
def map3 (f : α → β → γ → δ) (x : Phases α) (y : Phases β) (z : Phases γ) : Phases δ :=
  ⟨f x.a y.a z.a, f x.b y.b z.b, f x.c y.c z.c⟩

/-- True when every phase is. -/
def all (x : Phases Bool) : Bool := x.a && x.b && x.c

/-- True when some phase is. -/
def any (x : Phases Bool) : Bool := x.a || x.b || x.c

/-- Phases in either mask. -/
def join (x y : Phases Bool) : Phases Bool := map2 (fun p q => p || q) x y

/-- Phases in both masks. -/
def meet (x y : Phases Bool) : Phases Bool := map2 (fun p q => p && q) x y

/-- Phases in the first mask and not in the second. -/
def minus (x y : Phases Bool) : Phases Bool := map2 (fun p q => p && !q) x y

/-- The number of phases in a mask. -/
def count (x : Phases Bool) : Nat := x.a.toNat + x.b.toNat + x.c.toNat

/-- The mask as three bits: phase A in bit 0, B in bit 1, C in bit 2 (R161). -/
def bits (x : Phases Bool) : BitVec 3 :=
  BitVec.ofBool x.c ++ BitVec.ofBool x.b ++ BitVec.ofBool x.a

end Phases

end Sys2Proof
end

