-- ==== Sys2Proof/Syntax.lean ====
section
/-! DEFINITION. The commands of the part: one constructor of `Instr` for each row of the opcode table, with its
operands. An instant `t` is in nanoseconds (log 2). A `…Taking` operand says in which order the things that fall
at one instant are taken, where the manual gives an outcome for either order (log 4, 5, 7, 8, 20). -/

namespace Sys2Proof

/-- One channel of a sample set as the front-end sends it: the 16-bit word and its over-range flag (R1). -/
structure RawChannel where
  word : Half
  overRange : Bool
  deriving DecidableEq, Repr

/-- A sample set as the front-end sends it: eight channels and the parity bit (R1). -/
structure RawSet where
  v : Phases RawChannel
  i : Phases RawChannel
  link : RawChannel
  bus : RawChannel
  parity : Bool
  deriving DecidableEq, Repr

/-- The fault inputs (R128). -/
inductive FaultInput where
  | desat (p : Phase)
  | overtemp
  deriving DecidableEq, Repr

/-- The pieces of the blocks' work on one sample-set arrival that can be taken in any order (R6 and the either-order
sentences of chapters 1, 2, 6, 7 and 8). -/
inductive ArrivalPart where
  /-- RSQ takes the SENSE fault of a fourth consecutive missing set (R129). -/
  | sense
  /-- SDU's onset, re-sag, accumulation and recovery tests (R26 to R30). -/
  | detect
  /-- The cycle end of index 127 at PRU, EVC and RSQ (R10 to R14, R17, R86, R127). -/
  | cycleEnd
  /-- INC's work on the set (R89). -/
  | inject
  /-- RSQ's test for entering or leaving READY (R111, R112). -/
  | service
  /-- RSQ's link-low run (R118). -/
  | linkRun
  /-- RSQ's overcurrent run (R126). -/
  | overcurrent
  /-- RSQ's close waits (R123). -/
  | closeWaits
  /-- The completion of the capture in fill, when it is due (R142). -/
  | completion
  deriving DecidableEq, Repr

/-- The timed parts of an arrival that the opcode table also lists as steps of their own. -/
inductive TimedStep where
  | holdoverLimit
  | closeWaitTimeout
  | durationExpiry
  deriving DecidableEq, Repr

/-- When a capture that is due completes: within the command, after a capture "no" found at the event's end or before
it (R146); or left to a CAPTURE_COMPLETION step. -/
inductive CompletionTaking where
  | afterNo
  | beforeNo
  | apart
  deriving DecidableEq, Repr

/-- How one arrival is taken: the parts named in `order` first and in that order, then the rest; the timed steps
named in `apart` are left to commands of their own. With the holdover limit left apart the cycle end is taken last,
whatever the order names (R12, R113; log 5). With `softReset` a pending soft reset is carried out within the arrival, at
the first moment between its parts at which its conditions hold and with this value on the straps; without it the soft
reset is left to SOFT_RESET_CARRIED_OUT (R132; log 26). -/
structure ArrivalTaking where
  order : List ArrivalPart := []
  apart : List TimedStep := []
  completion : CompletionTaking := .afterNo
  softReset : Option (BitVec 4) := none
  deriving DecidableEq, Repr

/-- The work at a frame end that follows SLC's own and can be taken in any order (R43, R55, R63, R83, R158). -/
inductive FramePart where
  /-- ESA's allocation and its handing of the grant ratio (R58 to R67). -/
  | allocate
  /-- RSQ's zero-budget check, which takes the count ESA has handed (R118). -/
  | exhaust
  /-- EVC's window (R75, R76). -/
  | classify
  /-- RQH's following of the request fields (R156). -/
  | follow
  /-- The own block of a station in slot 0, sent at the frame end's instant (R43). -/
  | transmit
  /-- RQH's execution of a request within the frame end; taken only when named (log 9). -/
  | execute
  deriving DecidableEq, Repr

/-- How one slot start is taken, when it is a frame end: the order of the parts; whether a duration limit found at
classification is compared before a withdrawal of the same action (log 20); whether the expiry is left to a
DURATION_EXPIRY step. -/
structure FrameTaking where
  order : List FramePart := []
  limitFirst : Bool := false
  expiryApart : Bool := false
  deriving DecidableEq, Repr

/-- The commands, one constructor for each row of spec/opcode_table.json. `g` is the slot of the requesting gateway
and `tag` its request's tag (R154). -/
inductive Instr where
  /-- POWER_ON: power is applied (R177). -/
  | powerOn
  /-- RESET_ASSERTED: the RESET input is asserted (R57). -/
  | resetAsserted
  /-- RESET_RELEASED: the RESET input is released with this value on the straps (R168). -/
  | resetReleased (t : Nat) (straps : BitVec 4)
  /-- MEMORY_NO_ANSWER: an image byte did not arrive within 1 ms (R168). -/
  | memoryNoAnswer (t : Nat)
  /-- LOAD_COMPLETION: the load completes; `image` is what the memory holds from its first byte (R174). -/
  | loadCompletion (t : Nat) (image : List Byte)
  /-- ENABLE_ASSERTED (R110). -/
  | enableAsserted (t : Nat)
  /-- ENABLE_DEASSERTED (R121). -/
  | enableDeasserted (t : Nat)
  /-- FAULT_INPUT_ACTIVE: a fault input becomes active (R128). -/
  | faultInputActive (t : Nat) (f : FaultInput) (taking : CompletionTaking)
  /-- STROBE: the strobe time that PRU has given arrives (R8). -/
  | strobe
  /-- SAMPLE_SET_ARRIVAL: the front-end delivers a set (R3). -/
  | sampleSetArrival (t : Nat) (set : RawSet) (taking : ArrivalTaking)
  /-- ARRIVAL_DEADLINE: the deadline of the outstanding strobe passes (R3). -/
  | arrivalDeadline (taking : ArrivalTaking)
  /-- HOLDOVER_LIMIT: the holdover count has reached the limit (R13). -/
  | holdoverLimit
  /-- CLOSE_WAIT_TIMEOUT: the close wait of phase p has reached 64 arrivals (R123). -/
  | closeWaitTimeout (p : Phase) (taking : CompletionTaking)
  /-- DURATION_EXPIRY: the cycle-end count has reached the duration limit (R86). -/
  | durationExpiry
  /-- CAPTURE_COMPLETION: the capture that is due completes (R143). -/
  | captureCompletion
  /-- BLOCK_START: the line goes from idle to active (R35). -/
  | blockStart (t : Nat)
  /-- BLOCK_RECEIVED: a reception ends with these bytes; `readback` when it is the read-back of the own transmission
  (R37, R38). -/
  | blockReceived (t : Nat) (readback : Bool) (bytes : List Byte)
  /-- START_ALONE: the listen timer runs out (R42). -/
  | startAlone
  /-- SLOT_START: the nominal start of the next slot arrives (R35). -/
  | slotStart (taking : FrameTaking)
  /-- READ_ITEM (R159). -/
  | readItem (g : Nat) (tag : BitVec 4) (item : Word)
  /-- READ_RECORD (R160). -/
  | readRecord (g : Nat) (tag : BitVec 4) (slot : Half) (word : Half)
  /-- READ_PEER (R161). -/
  | readPeer (g : Nat) (tag : BitVec 4) (slot : Half) (field : Half)
  /-- FREE_RECORDS (R147). -/
  | freeRecords (g : Nat) (tag : BitVec 4) (n : Word)
  /-- CLEAR_LOCKOUT (R131). -/
  | clearLockout (g : Nat) (tag : BitVec 4)
  /-- TEST_CAPTURE (R148). -/
  | testCapture (g : Nat) (tag : BitVec 4)
  /-- SOFT_RESET (R164). -/
  | softReset (g : Nat) (tag : BitVec 4)
  /-- A request with code 8..15 (R158). -/
  | badCodeRequest (g : Nat) (tag : BitVec 4) (code : BitVec 4)
  /-- SOFT_RESET_CARRIED_OUT: the pending soft reset is made, with this value on the straps (R132). -/
  | softResetCarriedOut (t : Nat) (straps : BitVec 4)
  /-- FAULT_INPUT_CLEARED: a fault input is deasserted (R131). -/
  | faultInputCleared (t : Nat) (f : FaultInput)
  deriving DecidableEq, Repr

end Sys2Proof
end

