-- ==== Sys2Proof/Decode.lean ====
section
/-! DEFINITION. Which command a word spells by the opcode table's bits. No row of the table gives bits: the commands
are events, not words. -/

namespace Sys2Proof

/-- No row of the opcode table gives bits, so no word spells a command. -/
def decodeTableWord (_nbits _w : Nat) : Option Instr := none

end Sys2Proof
end

