-- ==== Sys2Proof/Config.lean ====
section
/-! DEFINITION. What is fixed for the part: the times of the share line, the channel limits, the capture memory's
size, and the shape and built-in defaults of the working settings. The manual leaves no value free after a
command, so no free value stands here. -/

namespace Sys2Proof.Config

/-- Nanoseconds in a microsecond: instants are kept in nanoseconds (log 2). -/
def microsecond : Nat := 1000

/-- One slot lasts 40 microseconds (R35). -/
def slotLength : Nat := 40000

/-- The acceptance window lasts 12 microseconds (R35). -/
def windowLength : Nat := 12000

/-- A block of 32 bytes occupies the line for 25.6 microseconds (R34). -/
def blockLength : Nat := 25600

/-- The listen timer starts at 960 microseconds (R40). -/
def listenLength : Nat := 960000

/-- The greatest position within a frame (R36). -/
def positionCap : Nat := 479

/-- Channel limit of the phase voltages, 0.1 V (R1). -/
def voltageLimit : Nat := 10000

/-- Channel limit of the load currents, A (R1). -/
def currentLimit : Nat := 4000

/-- Channel limit of the link and bus voltages, 0.1 V (R1). -/
def linkLimit : Nat := 12000

/-- The fraction of 32768 that represents one (00 section 4.1). -/
def one : Nat := 32768

/-- Byte address of the first summary area: the 49,152 sample words before it take two bytes each (R135, log 23). -/
def summaryBase : Nat := 98304

/-- The working settings (R170): six common values, then eighteen station values, in image order (R182). -/
structure Settings where
  fNom : Nat
  vNom : Nat
  pMax : Nat
  vKnee : Nat
  vFloor : Nat
  k : Nat
  cls : Nat
  rating : Nat
  sagThreshold : Nat
  recoverThreshold : Nat
  rmsPersistence : Nat
  instThreshold : Nat
  instPersistence : Nat
  recoverPersistence : Nat
  uMax : Nat
  turns : Nat
  linkReady : Nat
  linkMin : Nat
  iTrip : Nat
  rampLength : Nat
  refAgeLimit : Nat
  holdoverLimit : Nat
  layoutCode : Nat
  postTail : Nat
  deriving DecidableEq, Repr

/-- The built-in defaults (R170, R173). -/
def defaults : Settings where
  fNom := 50
  vNom := 2300
  pMax := 400
  vKnee := 7000
  vFloor := 5000
  k := 1
  cls := 3
  rating := 100
  sagThreshold := 900
  recoverThreshold := 950
  rmsPersistence := 4
  instThreshold := 600
  instPersistence := 3
  recoverPersistence := 64
  uMax := 2000
  turns := 1000
  linkReady := 6000
  linkMin := 4000
  iTrip := 1200
  rampLength := 128
  refAgeLimit := 25
  holdoverLimit := 250
  layoutCode := 1
  postTail := 1

end Sys2Proof.Config
end

