-- ==== Sys2Proof/Machine/Bytes.lean ====
section
/-! DEFINITION. Byte order, the CRC-16 and the common digest (R175, R179). -/

namespace Sys2Proof.Machine

/-- A 16-bit quantity, most significant byte first (R179). -/
def halfBytes (h : Half) : List Byte := [h.extractLsb' 8 8, h.extractLsb' 0 8]

/-- A 32-bit quantity, most significant byte first (R179). -/
def wordBytes (w : Word) : List Byte :=
  [w.extractLsb' 24 8, w.extractLsb' 16 8, w.extractLsb' 8 8, w.extractLsb' 0 8]

/-- The byte at a position; a byte that is not there reads as 0. -/
def byteAt (bytes : List Byte) (n : Nat) : Byte := bytes.getD n 0

/-- The 16-bit quantity at a byte position (R179). -/
def halfAt (bytes : List Byte) (n : Nat) : Half := byteAt bytes n ++ byteAt bytes (n + 1)

/-- The 32-bit quantity at a byte position (R179). -/
def wordAt (bytes : List Byte) (n : Nat) : Word := halfAt bytes n ++ halfAt bytes (n + 2)

/-- One bit enters the CRC register (R179). -/
def crcBit (r : Half) (bit : Bool) : Half :=
  if r.msb != bit then (r <<< 1) ^^^ 0x1021#16 else r <<< 1

/-- One byte enters the CRC register, most significant bit first (R179). -/
def crcByte (r : Half) (b : Byte) : Half :=
  [7, 6, 5, 4, 3, 2, 1, 0].foldl (fun r n => crcBit r (b.getLsbD n)) r

/-- The CRC-16: preset FFFFh, no final inversion (R179). -/
def crc16 (bytes : List Byte) : Half := bytes.foldl crcByte 0xFFFF#16

/-- The common section as it stands in an image (R182): six values of two bytes. -/
def commonBytes (c : Config.Settings) : List Byte :=
  [c.fNom, c.vNom, c.pMax, c.vKnee, c.vFloor, c.k].flatMap (fun n => halfBytes (BitVec.ofNat 16 n))

/-- The common digest of settings in force (R175). -/
def digestOf (c : Config.Settings) : Half := crc16 (commonBytes c)

end Sys2Proof.Machine
end

