-- ==== Sys2Proof/Machine/Types.lean ====
section
/-! DEFINITION. The state of each of the eleven blocks as plain data. A field names the rule that gives it; its reset
value stands in Machine/Initial.lean. -/

namespace Sys2Proof.Machine

/-- The inputs as they stand. -/
structure Pins where
  /-- RESET held, from power-on or its assertion to its release (R7, R177; log 10). -/
  resetHeld : Bool
  /-- ENABLE asserted (R110). -/
  enable : Bool
  /-- DESAT of each phase active (R128). -/
  desat : Phases Bool
  /-- OVERTEMP active (R128). -/
  overtemp : Bool
  deriving DecidableEq, Repr

/-- A sample set as SPT hands it on (R1, R2, R6). -/
structure SampleSet where
  v : Phases Int
  i : Phases Int
  link : Nat
  bus : Nat
  deriving DecidableEq, Repr

/-- A strobe that has no outcome yet (R1, R3). -/
structure Outstanding where
  index : Nat
  deadline : Nat
  deriving DecidableEq, Repr

/-- Sample Port. -/
structure Spt where
  /-- The last good set (R4). It is also the set last handed on: a good set becomes it, a held set repeats it (R6). -/
  lastGood : SampleSet
  /-- Missing-set run count, saturating at 255 (R4). -/
  missRun : BitVec 8
  /-- Sample-fault count, saturating at 65535 (R4). -/
  faultCount : Half
  /-- The outstanding strobe (R1). -/
  outstanding : Option Outstanding
  deriving DecidableEq, Repr

/-- Lock states (R12). -/
inductive LockState where
  | acquire | locked | holdover
  deriving DecidableEq, Repr

/-- A run of 128 strobe intervals, with the values that fixed its length (R8). -/
structure Run where
  start : Nat
  fEst : Nat
  dc : Int
  deriving DecidableEq, Repr

/-- The reference cycle store (01 section 1.5). -/
structure RefCycle where
  samples : List (Phases Int)
  rms : Phases Nat
  age : Half
  valid : Bool
  deriving DecidableEq, Repr

/-- What PRU notes of the cycle in progress (R9, R10, R17). -/
structure Cycle where
  /-- Positive crossings counted so far. -/
  crossings : Nat
  /-- Position d of the first crossing, in sixteenths of a sample. -/
  firstD : Option Int
  /-- Some set had r_A below 500. -/
  lowA : Bool
  /-- Some set was missing. -/
  missing : Bool
  /-- Some set had a phase flagged or a residual outside 900..1100. -/
  unhealthy : Bool
  /-- An event has ended since the cycle's run began (R8, R17; log 27). -/
  eventEnded : Bool
  deriving DecidableEq, Repr

/-- Phase Reference Unit. -/
structure Pru where
  lock : LockState
  /-- Frequency estimate in mHz (R11). -/
  fEst : Nat
  /-- Sample index of the next strobe (R8). -/
  index : Nat
  /-- Good-cycle count, saturating at 65535 (R12). -/
  goodCount : Half
  /-- Holdover count (R12). -/
  holdoverCount : Nat
  ref : RefCycle
  /-- Candidate buffer (R16). -/
  candidate : List (Phases Int)
  /-- The run in progress (R8); none before the first strobe. -/
  run : Option Run
  /-- Phase error that the next run removes (R8, R11). -/
  dc : Int
  /-- Phase-A voltage of the arrival before; none after a reset (R9). -/
  prevVA : Option Int
  cycle : Cycle
  deriving DecidableEq, Repr

/-- The two detectors of one phase (R22, R23). -/
structure Detector where
  rmsFlag : Bool
  belowRun : Half
  aboveRun : Half
  instFlag : Bool
  overRun : Half
  withinRun : Half
  deriving DecidableEq, Repr

/-- The onset record (R28). -/
structure OnsetRecord where
  isOpen : Bool
  onsetMask : Phases Bool
  sinceMask : Phases Bool
  rMin : Phases Nat
  deriving DecidableEq, Repr

/-- Sag Detection Unit. -/
structure Sdu where
  /-- The 128 most recent arrivals, newest first (R20). -/
  history : List (Phases Int)
  /-- S_p over 64 arrivals (R20). -/
  sum64 : Phases Nat
  /-- S128_p over 128 arrivals (R20). -/
  sum128 : Phases Nat
  /-- R_p (R21). -/
  rms : Phases Nat
  /-- r_p (R21). -/
  residual : Phases Nat
  detectors : Phases Detector
  /-- Phase flags after the latest update (R25). -/
  flags : Phases Bool
  /-- Phase flags after the update before it (R26, R27). -/
  prevFlags : Phases Bool
  record : OnsetRecord
  /-- Recovery count (R30). -/
  recovery : Nat
  deriving DecidableEq, Repr

/-- Event classes (R74, R76). -/
inductive EventClass where
  | pending | grid | localOnly
  deriving DecidableEq, Repr

/-- Class match of a table entry (R79). -/
inductive ClassMatch where
  | grid | localOnly | any
  deriving DecidableEq, Repr

/-- Method of a table entry's action (R79). -/
inductive TableMethod where
  | presag | inphase | withdraw
  deriving DecidableEq, Repr

/-- A response table entry in force, decoded (R79, R172). -/
structure TableEntry where
  classMatch : ClassMatch
  /-- Bit n-1 stands for a phase count of n (R182). -/
  phaseSet : BitVec 3
  lo : Nat
  hi : Nat
  method : TableMethod
  /-- none is KEEP. -/
  override : Option (BitVec 2)
  capture : Bool
  /-- Cycles; 0 for no limit. -/
  limit : Nat
  endFlag : Bool
  deriving DecidableEq, Repr

/-- Event Classifier. -/
structure Evc where
  eventClass : EventClass
  /-- Confirmation window open (R74). -/
  window : Bool
  /-- The window's frame-end count (R76). -/
  windowCount : Nat
  /-- Coincidence count (R75). -/
  coincidence : Nat
  /-- Matched entry index, or none (R80, R81). -/
  matched : Option Nat
  /-- Class override in force (R84). -/
  override : Option (BitVec 2)
  /-- Duration limit in force (R86). -/
  limit : Option Nat
  /-- Cycle ends since onset, saturating at 65535 (R86). -/
  cycles : Half
  /-- Withdrawal mark (R83). -/
  withdrawn : Bool
  /-- Stale flag (R82). -/
  stale : Bool
  /-- Response table entries in force (R79). -/
  table : List TableEntry
  /-- Entries after the first end flag, as loaded (R79, R172). -/
  unused : List (List Byte)
  /-- An expiry found and left to a DURATION_EXPIRY step (log 5). -/
  expiryDue : Bool
  deriving DecidableEq, Repr

/-- Injection methods (R90). -/
inductive Method where
  | presag | inphase
  deriving DecidableEq, Repr

/-- Injection Computer. -/
structure Inc where
  /-- Modulator port, 0.1 V (R101). -/
  port : Phases Int
  /-- Method in use (R90, R91). -/
  method : Method
  /-- Ramp factor a (R99). -/
  ramp : Nat
  /-- Ramp count n (R99). -/
  rampCount : Nat
  /-- Limited flag (R96). -/
  limited : Bool
  /-- Energy sum, 0.1 W per set (R103). -/
  energy : Int
  /-- Lowest ratio (R105). -/
  lowest : Nat
  /-- Ratio in force (R67). -/
  ratio : Nat
  /-- Own demand D, kW (R69). -/
  demand : Nat
  /-- Demand window sum P_dem, 0.1 W (R68). -/
  pDem : Int
  /-- Demand window set count n (R68). -/
  nDem : Nat
  deriving DecidableEq, Repr

/-- Restorer states (R109). -/
inductive RestorerState where
  | off | charge | ready | inject | release | lockout
  deriving DecidableEq, Repr

/-- End causes (R116, R159); `test` is a test capture's (R150). -/
inductive EndCause where
  | none | recovered | exhausted | withdrawn | duration | overcurrent | fault | sense | disabled | test
  deriving DecidableEq, Repr

/-- Restorer Sequencer. -/
structure Rsq where
  state : RestorerState
  /-- Bypass command of each phase: true is open (R109). -/
  bypassOpen : Phases Bool
  /-- Bridge enable (R109). -/
  bridge : Bool
  /-- Close wait of each phase: its count of arrivals, or none (R123). -/
  waits : Phases (Option Nat)
  /-- INC has reported the ramp factor at 0 in this RELEASE (R122). -/
  rampDone : Bool
  /-- Link-low run (R118). -/
  linkLow : Nat
  /-- Overcurrent run (R126). -/
  overRun : Nat
  /-- Event number counter (R115). -/
  eventCounter : Word
  /-- Number of the latest event (R115, R124). -/
  event : Word
  endCause : EndCause
  /-- Re-sag flag (R116). -/
  resag : Bool
  lastEndCause : EndCause
  /-- Overcurrent end list, oldest first (R127). -/
  overEnds : List Word
  /-- Overcurrent end count, saturating at 65535 (R127). -/
  overEndCount : Half
  /-- Cycle count, wrapping (R127). -/
  cycleCount : Word
  /-- Quiesce-pending flag (R132). -/
  quiesce : Bool
  /-- An own block carrying the quiesce-pending bit has been sent since (R132). -/
  sentSince : Bool
  /-- The latest arrival was one on which an onset was taken or refused (R89, R113, R118, R126). -/
  onsetArrival : Bool
  deriving DecidableEq, Repr

/-- Energy Share Allocator: its last allocation (R66) and the zero-budget count (R59). -/
structure Esa where
  budget : Nat
  zeroCount : BitVec 8
  grant : Nat
  ratio : Nat
  deriving DecidableEq, Repr

/-- Membership states (03 section 3.3). -/
inductive Membership where
  | down | listen | member | mute
  deriving DecidableEq, Repr

/-- States of a peer-table entry (R50). -/
inductive EntryState where
  | absent | live | held
  deriving DecidableEq, Repr

/-- The five slow values of a block (R52). -/
structure Slow where
  kind : BitVec 4
  cls : BitVec 2
  rating : Half
  digest : Half
  defaultsFlag : Bool
  deriving DecidableEq, Repr

/-- The fast fields of a block (R50), sag_prev apart. -/
structure Fast where
  restorer : BitVec 3
  lock : BitVec 2
  active : Bool
  sagNow : Phases Bool
  demand : Half
  grant : Half
  bus : Half
  link : Half
  eventLow : Half
  full : BitVec 4
  rMinPercent : Byte
  eventClass : BitVec 2
  resag : Bool
  quiesce : Bool
  mute : Bool
  /-- The six bytes of the request/reply field. -/
  request : BitVec 48
  deriving DecidableEq, Repr

/-- The contents of a status block (R49, R180). -/
structure Block where
  kind : BitVec 4
  slot : BitVec 4
  frameNumber : Word
  slow : Slow
  fast : Fast
  deriving DecidableEq, Repr

/-- A peer-table entry (R50). -/
structure PeerEntry where
  state : EntryState
  missed : Nat
  heard : Bool
  /-- Accepted slow fields; some is the slow-accepted flag, none is unknown. -/
  slow : Option Slow
  /-- Slow candidate. -/
  candidate : Option Slow
  foreign : Bool
  frameNumber : Word
  fast : Fast
  sagPrev : Phases Bool
  deriving DecidableEq, Repr

/-- The slot grid of a timed station (R34, R35, R36), instants in nanoseconds. -/
structure Timing where
  /-- Slot counter. -/
  slot : Nat
  /-- Nominal start of the current slot. -/
  nominal : Nat
  /-- Nominal start of the next slot. -/
  next : Nat
  /-- A block has begun inside the current slot's window, or the window is closed to one. -/
  taken : Bool
  /-- The last frame end since the station became timed. -/
  lastFrameEnd : Option Nat
  /-- Nominal start of the first slot of the grid. -/
  gridStart : Nat
  deriving DecidableEq, Repr

/-- A reception in progress (R34, R35): when it began, and the slot counter at its start when it is a slot's block. -/
structure Reception where
  start : Nat
  inSlot : Option Nat
  deriving DecidableEq, Repr

/-- An own transmission in progress (R43, R44). -/
structure Transmission where
  start : Nat
  bytes : List Byte
  /-- It carries the quiesce-pending bit (R132). -/
  quiesce : Bool
  deriving DecidableEq, Repr

/-- The realignment candidate of a misaligned frame (R46). -/
structure Candidate where
  start : Nat
  slot : Nat
  frameNumber : Word
  deriving DecidableEq, Repr

/-- Share Line Controller. -/
structure Slc where
  membership : Membership
  /-- none is untimed (R34). -/
  timing : Option Timing
  /-- Instant at which the listen timer runs out; none is stopped (R40). -/
  listenEnd : Option Nat
  /-- The first valid block of LISTEN has been taken (R40, R41). -/
  heardFirst : Bool
  frameNumber : Word
  /-- The peer table, twelve entries (R50). -/
  peers : List PeerEntry
  /-- Line error count, modulo 65536 (R37). -/
  lineErrors : Half
  /-- Collision run (R44). -/
  collisionRun : Nat
  /-- Collision count, saturating at 255 (R44). -/
  collisionCount : BitVec 8
  /-- Collision mark of the frame (R44). -/
  collisionMark : Bool
  /-- Misalignment run, 0..2 (R46). -/
  misalignRun : Nat
  /-- Misalignment count, saturating at 65535 (R56). -/
  misalignCount : Half
  /-- The frame is misaligned, with this candidate (R46). -/
  candidate : Option Candidate
  /-- Line status DUPLICATE (R44). -/
  duplicate : Bool
  /-- Reception in progress. -/
  rx : Option Reception
  /-- Own transmission in progress. -/
  tx : Option Transmission
  deriving DecidableEq, Repr

/-- Layouts of the capture memory (R135). -/
inductive Layout where
  | code0 | code1 | code2
  deriving DecidableEq, Repr

/-- States of a capture slot (R136). -/
inductive SlotState where
  | free | filling | full
  deriving DecidableEq, Repr

/-- One entry of the pre-trigger history: the six captured channels (R137). -/
structure CapturedSet where
  v : Phases Int
  i : Phases Int
  deriving DecidableEq, Repr

/-- The onset fields of a summary in making (R138). -/
structure OnsetFields where
  event : Word
  frameNumber : Word
  position : Nat
  refAge : Half
  deriving DecidableEq, Repr

/-- What CST is handed at an event's end (R106, R124, R144). -/
structure EndFields where
  frameNumber : Word
  position : Nat
  energy : Int
  lowest : Nat
  method : Method
  limited : Bool
  cause : EndCause
  resag : Bool
  deriving DecidableEq, Repr

/-- What CST takes from EVC and SDU for the event that ended (R144). -/
structure ClassFields where
  eventClass : EventClass
  coincidence : Nat
  matched : Option Nat
  stale : Bool
  mask : Phases Bool
  rMin : Phases Nat
  deriving DecidableEq, Repr

/-- The record of an event that CST is making, in a slot or queued (R138, R140, R144, R145). -/
structure Making where
  onset : OnsetFields
  /-- Duration count, saturating (R145). -/
  duration : Word
  /-- Set once the event has ended. -/
  ended : Option EndFields
  /-- Set when taken before the completion, at a later onset (R144). -/
  classed : Option ClassFields
  deriving DecidableEq, Repr

/-- The capture in fill (R138, R141, R142). -/
structure Capture where
  making : Making
  /-- Written-set count (R141). -/
  written : Nat
  /-- Post tail: the count of its arrivals; none before it begins (R142). -/
  tail : Option Nat
  truncated : Bool
  delayed : Bool
  test : Bool
  deriving DecidableEq, Repr

/-- The queued opening (R140). -/
structure Queued where
  making : Making
  /-- The latest arrival is still the onset arrival. -/
  atOnset : Bool
  deriving DecidableEq, Repr

/-- The fields of a completed summary (R144, R150, R181). -/
structure Summary where
  onset : OnsetFields
  endFrame : Word
  endPosition : Nat
  duration : Word
  energy : Int
  lowest : Nat
  classed : ClassFields
  /-- none is NONE, a test capture's (R150). -/
  method : Option Method
  cause : EndCause
  truncated : Bool
  limited : Bool
  resag : Bool
  test : Bool
  delayed : Bool
  cycles : Nat
  deriving DecidableEq, Repr

/-- Capture Store. -/
structure Cst where
  /-- The capture memory as cells in canonical form (R135; log 23). -/
  mem : List Host.Cell
  /-- Layout in force; none is not yet fixed (R135). -/
  layout : Option Layout
  oldest : Nat
  fill : Nat
  /-- FULL count (R136). -/
  full : Nat
  /-- The capture in the fill slot, which is then FILLING (R136). -/
  filling : Option Capture
  queued : Option Queued
  /-- Missed-capture count, saturating at 65535 (R139). -/
  missed : Half
  /-- The 128 most recent arrivals, oldest first (R137). -/
  history : List CapturedSet
  deriving DecidableEq, Repr

/-- Statuses of a reply (R155). -/
inductive Status where
  | none | ok | badCode | badArg | refused | freeTooMany
  deriving DecidableEq, Repr

/-- The reply field (R155). -/
structure Reply where
  requester : Byte
  tag : BitVec 4
  status : Status
  data : Word
  deriving DecidableEq, Repr

/-- What RQH keeps for one slot (R156). -/
structure Follow where
  previous : Option (BitVec 48)
  confirmed : Bool
  baseline : Option (BitVec 48)
  baselinePending : Bool
  lastTag : Option (BitVec 4)
  deriving DecidableEq, Repr

/-- Request Handler. -/
structure Rqh where
  reply : Reply
  /-- Twelve, one for each slot (R156). -/
  slots : List Follow
  /-- The present frame end's one execution is still open (R158; log 9). -/
  execOpen : Bool
  deriving DecidableEq, Repr

/-- Source of the settings in force (R176). -/
inductive Source where
  | loading | image | defaults
  deriving DecidableEq, Repr

/-- Reason for the defaults (R176). -/
inductive Reason where
  | none | noAnswer | badFormat | badCrc
  deriving DecidableEq, Repr

/-- Configuration Loader: working settings, digest and configuration status (R175, R176). -/
structure Cfl where
  settings : Config.Settings
  digest : Half
  defaultsFlag : Bool
  source : Source
  reason : Reason
  badStrap : Bool
  clamped : Bool
  voidMask : BitVec 12
  entriesInForce : Nat
  layoutHeld : Bool
  strap : BitVec 4
  /-- The straps have been read since the reset (R165, R167). -/
  strapsRead : Bool
  /-- A load is in flight (R168). -/
  loading : Bool
  deriving DecidableEq, Repr

end Sys2Proof.Machine
end

