-- ==== Sys2Proof/Machine/Initial.lean ====
section
/-! DEFINITION. The initial state of each block, at power-on and while the RESET input is asserted. -/

namespace Sys2Proof.Machine

/-- A set that is zero on every channel (R4, R7). -/
def SampleSet.zero : SampleSet := ⟨Phases.same 0, Phases.same 0, 0, 0⟩

/-- R7. -/
def Spt.initial : Spt where
  lastGood := SampleSet.zero
  missRun := 0
  faultCount := 0
  outstanding := none

/-- A cycle of which nothing has been seen (R9, R10, R17). -/
def Cycle.start : Cycle where
  crossings := 0
  firstD := none
  lowA := false
  missing := false
  unhealthy := false
  eventEnded := false

/-- 128 samples of zero on each phase. -/
def zeroCycle : List (Phases Int) := List.replicate 128 (Phases.same 0)

/-- R19. -/
def Pru.initial : Pru where
  lock := .acquire
  fEst := 50000
  index := 0
  goodCount := 0
  holdoverCount := 0
  ref := { samples := zeroCycle, rms := Phases.same 0, age := 65535, valid := false }
  candidate := zeroCycle
  run := none
  dc := 0
  prevVA := none
  cycle := Cycle.start

/-- R33. -/
def Detector.initial : Detector where
  rmsFlag := false
  belowRun := 0
  aboveRun := 0
  instFlag := false
  overRun := 0
  withinRun := 0

/-- R28, R33. -/
def OnsetRecord.initial : OnsetRecord where
  isOpen := false
  onsetMask := Phases.same false
  sinceMask := Phases.same false
  rMin := Phases.same 1500

/-- R33. -/
def Sdu.initial : Sdu where
  history := zeroCycle
  sum64 := Phases.same 0
  sum128 := Phases.same 0
  rms := Phases.same 0
  residual := Phases.same 0
  detectors := Phases.same Detector.initial
  flags := Phases.same false
  prevFlags := Phases.same false
  record := OnsetRecord.initial
  recovery := 0

/-- R88. -/
def Evc.initial : Evc where
  eventClass := .pending
  window := false
  windowCount := 0
  coincidence := 0
  matched := none
  override := none
  limit := none
  cycles := 0
  withdrawn := false
  stale := false
  table := []
  unused := []
  expiryDue := false

/-- R71, R108. -/
def Inc.initial : Inc where
  port := Phases.same 0
  method := .inphase
  ramp := Config.one
  rampCount := 0
  limited := false
  energy := 0
  lowest := Config.one
  ratio := Config.one
  demand := 0
  pDem := 0
  nDem := 0

/-- R134. -/
def Rsq.initial : Rsq where
  state := .off
  bypassOpen := Phases.same false
  bridge := false
  waits := Phases.same none
  rampDone := false
  linkLow := 0
  overRun := 0
  eventCounter := 0
  event := 0
  endCause := .none
  resag := false
  lastEndCause := .none
  overEnds := []
  overEndCount := 0
  cycleCount := 0
  quiesce := false
  sentSince := false
  onsetArrival := false

/-- R71. -/
def Esa.initial : Esa where
  budget := 0
  zeroCount := 0
  grant := 0
  ratio := Config.one

/-- The fast fields of a cleared entry (R54). -/
def Fast.cleared : Fast where
  restorer := 0
  lock := 0
  active := false
  sagNow := Phases.same false
  demand := 0
  grant := 0
  bus := 0
  link := 0
  eventLow := 0
  full := 0
  rMinPercent := 0
  eventClass := 0
  resag := false
  quiesce := false
  mute := false
  request := 0

/-- An ABSENT entry, every field cleared (R54). -/
def PeerEntry.absent : PeerEntry where
  state := .absent
  missed := 0
  heard := false
  slow := none
  candidate := none
  foreign := false
  frameNumber := 0
  fast := Fast.cleared
  sagPrev := Phases.same false

/-- R57, the column of power-on and the RESET input. -/
def Slc.initial : Slc where
  membership := .down
  timing := none
  listenEnd := none
  heardFirst := false
  frameNumber := 0
  peers := List.replicate 12 PeerEntry.absent
  lineErrors := 0
  collisionRun := 0
  collisionCount := 0
  collisionMark := false
  misalignRun := 0
  misalignCount := 0
  candidate := none
  duplicate := false
  rx := none
  tx := none

/-- 128 entries of zero (R137, R152). -/
def zeroHistory : List CapturedSet := List.replicate 128 ⟨Phases.same 0, Phases.same 0⟩

/-- R152. -/
def Cst.initial : Cst where
  mem := []
  layout := none
  oldest := 0
  fill := 0
  full := 0
  filling := none
  queued := none
  missed := 0
  history := zeroHistory

/-- R166. -/
def Follow.initial : Follow where
  previous := none
  confirmed := false
  baseline := none
  baselinePending := true
  lastTag := none

/-- R166. -/
def Rqh.initial : Rqh where
  reply := { requester := 0, tag := 0, status := .none, data := 0 }
  slots := List.replicate 12 Follow.initial
  execOpen := false

/-- R177. -/
def Cfl.initial : Cfl where
  settings := Config.defaults
  digest := digestOf Config.defaults
  defaultsFlag := true
  source := .loading
  reason := .none
  badStrap := false
  clamped := false
  voidMask := 0
  entriesInForce := 0
  layoutHeld := false
  strap := 0
  strapsRead := false
  loading := false

/-- The inputs at power-on: RESET held; the levels of the others are a choice (log 10, 11). -/
def Pins.initial : Pins where
  resetHeld := true
  enable := false
  desat := Phases.same false
  overtemp := false

end Sys2Proof.Machine
end

