-- ==== Sys2Proof/Machine/State.lean ====
section
/-! DEFINITION. The state of the part as plain data, the reasons a step could stop, and the state at power-on. -/

namespace Sys2Proof.Machine

/-- Reasons for a fault. None: the manual gives every command an outcome in every state, so nothing raises a fault
(log 30). -/
inductive Fault where
  deriving DecidableEq, Repr

/-- Reasons for a refusal. -/
inductive Refusal where
  /-- A command of the table that has no meaning yet; raised by `exec` alone, and safe, since it stops the run. No
  command is left so. -/
  | notModelled (mnemonic : String)
  deriving DecidableEq, Repr

/-- The state of the part: its inputs, the present instant, its eleven blocks (00 section 2), and the commands that
wait. -/
structure State where
  pins : Pins
  /-- The present instant in nanoseconds (log 2). -/
  now : Nat
  spt : Spt
  pru : Pru
  sdu : Sdu
  evc : Evc
  inc : Inc
  rsq : Rsq
  esa : Esa
  slc : Slc
  cst : Cst
  rqh : Rqh
  cfl : Cfl
  /-- The commands that wait, first in first out (log 1). -/
  pending : List Instr
  deriving DecidableEq, Repr

/-- The state at power-on: every block in its initial state, nothing running until the RESET input is released
(R7, R177; log 10, 11). -/
def State.reset : State where
  pins := Pins.initial
  now := 0
  spt := Spt.initial
  pru := Pru.initial
  sdu := Sdu.initial
  evc := Evc.initial
  inc := Inc.initial
  rsq := Rsq.initial
  esa := Esa.initial
  slc := Slc.initial
  cst := Cst.initial
  rqh := Rqh.initial
  cfl := Cfl.initial
  pending := []

end Sys2Proof.Machine
end

