-- ==== Sys2Proof/Machine/Ops.lean ====
section
/-! DEFINITION. Named operations: the manual's arithmetic (00 section 4.2), counters, the capture memory's cells, the
clock, and the views of the state that several blocks read. -/

namespace Sys2Proof.Machine

/-! Arithmetic. -/

/-- A count that saturates at the greatest value of its width. -/
def satInc {w : Nat} (x : BitVec w) : BitVec w := if x = BitVec.allOnes w then x else x + 1

/-- Clamp to a range (00 section 4.2). -/
def clampNat (lo hi x : Nat) : Nat := max lo (min x hi)

/-- Saturate to a limit of either sign (00 section 4.2). -/
def saturate (limit : Nat) (x : Int) : Int := max (-(limit : Int)) (min x limit)

/-- Round-to-nearest of n/d for d above 0: halves away from zero (00 section 4.2). -/
def roundDiv (n d : Int) : Int :=
  if 0 ≤ n then Int.fdiv (2 * n + d) (2 * d) else -Int.fdiv (2 * -n + d) (2 * d)

/-- ceil of n/d for d above 0. -/
def ceilDiv (n d : Nat) : Nat := (n + d - 1) / d

/-- The integer square root found bit by bit, from bit `k - 1` down, starting at the root `r` found so far. -/
def isqrtFrom (n : Nat) : Nat → Nat → Nat
  | 0, r => r
  | k + 1, r => isqrtFrom n k (if (r + 2 ^ k) * (r + 2 ^ k) ≤ n then r + 2 ^ k else r)

/-- The integer square root, floored (00 section 4.2). -/
def isqrt (n : Nat) : Nat := isqrtFrom n (n.log2 + 1) 0

/-- The sum of a triple of integers. -/
def sum3 (x : Phases Int) : Int := x.a + x.b + x.c

/-! The capture memory. Unlisted addresses read as 0 (R152). -/

namespace Memory

/-- The byte at an address. -/
def read : List Host.Cell → Nat → Byte
  | [], _ => 0
  | (b, v) :: m, a => if a = b then v else read m a

/-- The cells with one byte replaced; writing 0 removes the cell. -/
def write : List Host.Cell → Nat → Byte → List Host.Cell
  | [], a, v => if v = 0 then [] else [(a, v)]
  | (b, w) :: m, a, v =>
    if a < b then (if v = 0 then (b, w) :: m else (a, v) :: (b, w) :: m)
    else if a = b then (if v = 0 then m else (a, v) :: m)
    else (b, w) :: write m a v

/-- Canonical form: addresses strictly rising, no cell holding 0. -/
def wf : List Host.Cell → Bool
  | [] => true
  | (a, v) :: m => v != 0 && m.all (fun c => decide (a < c.1)) && wf m

/-- Bytes written at rising addresses. -/
def writeBytes (m : List Host.Cell) (a : Nat) : List Byte → List Host.Cell
  | [] => m
  | v :: vs => writeBytes (write m a v) (a + 1) vs

/-- Bytes read at rising addresses. -/
def readBytes (m : List Host.Cell) (a : Nat) : Nat → List Byte
  | 0 => []
  | n + 1 => read m a :: readBytes m (a + 1) n

/-- The 32-bit word at an address (R179). -/
def readWord (m : List Host.Cell) (a : Nat) : Word := wordAt (readBytes m a 4) 0

end Memory

/-! The clock. -/

/-- Time moves on to an instant; it never goes back (log 2). -/
def State.moveTo (t : Nat) (s : State) : State := { s with now := max s.now t }

/-! Views that several blocks read. -/

/-- The settings in force. -/
abbrev State.settings (s : State) : Config.Settings := s.cfl.settings

/-- The own slot, when the straps have been read and are valid (R167). -/
def ownSlot (s : State) : Option Nat :=
  if s.cfl.strapsRead = true ∧ s.cfl.strap.toNat < 12 then some s.cfl.strap.toNat else none

/-- An event is active (R109). -/
def eventActive (s : State) : Bool := s.rsq.state == .inject || s.rsq.state == .release

/-- The working settings have come into force since the last reset (R110, R176). -/
def inForce (s : State) : Bool := s.cfl.source != .loading

/-- Some fault input is active (R128). -/
def faultActive (s : State) : Bool := s.pins.desat.any || s.pins.overtemp

/-- The station has a place on the line (R111). -/
def onLine (s : State) : Bool := s.slc.membership == .member || s.slc.membership == .mute

/-- The reference is fresh (R18). -/
def fresh (s : State) : Bool :=
  s.pru.ref.valid && decide (s.pru.ref.age.toNat ≤ s.settings.refAgeLimit)

/-- The announced class: the override while one is in force, else the configured class (R63, R84). -/
def announcedClass (s : State) : BitVec 2 := s.evc.override.getD (BitVec.ofNat 2 s.settings.cls)

/-- The position within the frame, in whole microseconds (R36). -/
def framePosition (s : State) : Nat :=
  match s.slc.timing with
  | none => 0
  | some g => min Config.positionCap ((s.now - g.lastFrameEnd.getD g.gridStart) / Config.microsecond)

/-- The depth of the onset record: the least r_min over the flagged phases (R29). -/
def depth (r : OnsetRecord) : Nat :=
  [Phase.a, Phase.b, Phase.c].foldl (fun d p => if r.sinceMask.get p then min d (r.rMin.get p) else d) 1500

/-- r_min percent for the own block (R29). -/
def rMinPercent (r : OnsetRecord) : Nat := if r.isOpen then min 100 (depth r / 10) else 100

end Sys2Proof.Machine
end

