-- ==== Sys2Proof/Machine/Operands.lean ====
section
/-! DEFINITION. The operand forms: the sample set (R1, R2), the status block both ways (R49, R180), the request field
(R154, R180) and the codes of R15, R49, R159. -/

namespace Sys2Proof.Machine

/-! The sample set. -/

/-- The number of one bits of a word. -/
def popCount {w : Nat} (x : BitVec w) : Nat := (List.range w).countP (fun n => x.getLsbD n)

/-- The eight channels of a set. -/
def rawChannels (r : RawSet) : List RawChannel :=
  [r.v.a, r.v.b, r.v.c, r.i.a, r.i.b, r.i.c, r.link, r.bus]

/-- The set passes the parity check: an even number of ones in words, flags and parity bit (R1). -/
def parityGood (r : RawSet) : Bool :=
  (((rawChannels r).map (fun c => popCount c.word + c.overRange.toNat)).sum + r.parity.toNat) % 2 == 0

/-- A signed channel, saturated (R2). -/
def signedChannel (limit : Nat) (c : RawChannel) : Int :=
  if c.overRange then (if c.word.msb then -(limit : Int) else limit) else saturate limit c.word.toInt

/-- An unsigned channel, saturated (R2). -/
def unsignedChannel (limit : Nat) (c : RawChannel) : Nat :=
  if c.overRange then limit else min c.word.toNat limit

/-- The set as every block sees it (R2). -/
def saturatedSet (r : RawSet) : SampleSet where
  v := r.v.map (signedChannel Config.voltageLimit)
  i := r.i.map (signedChannel Config.currentLimit)
  link := unsignedChannel Config.linkLimit r.link
  bus := unsignedChannel Config.linkLimit r.bus

/-! Codes. -/

/-- R15. -/
def LockState.code : LockState → BitVec 2
  | .acquire => 0
  | .locked => 1
  | .holdover => 2

/-- R49, R109. -/
def RestorerState.code : RestorerState → BitVec 3
  | .off => 0
  | .charge => 1
  | .ready => 2
  | .inject => 3
  | .release => 4
  | .lockout => 5

/-- R181. -/
def EventClass.code : EventClass → BitVec 2
  | .pending => 0
  | .grid => 1
  | .localOnly => 2

/-- R159. -/
def EndCause.code : EndCause → BitVec 4
  | .none => 0
  | .recovered => 1
  | .exhausted => 2
  | .withdrawn => 3
  | .duration => 4
  | .overcurrent => 5
  | .fault => 6
  | .sense => 7
  | .disabled => 8
  | .test => 9

/-- R155. -/
def Status.code : Status → BitVec 4
  | .none => 0
  | .ok => 1
  | .badCode => 2
  | .badArg => 3
  | .refused => 4
  | .freeTooMany => 5

/-- R56. -/
def Membership.code : Membership → BitVec 2
  | .down => 0
  | .listen => 1
  | .member => 2
  | .mute => 3

/-- R161. -/
def EntryState.code : EntryState → BitVec 2
  | .absent => 0
  | .live => 1
  | .held => 2

/-- R182. -/
def Source.code : Source → BitVec 2
  | .loading => 0
  | .image => 1
  | .defaults => 2

/-- R182. -/
def Reason.code : Reason → BitVec 2
  | .none => 0
  | .noAnswer => 1
  | .badFormat => 2
  | .badCrc => 3

/-! The request/reply field, six bytes (R154, R155, R180). -/

/-- The reply form. -/
def Reply.field (r : Reply) : BitVec 48 := r.requester ++ r.tag ++ r.status.code ++ r.data

/-- Target slot of a request. -/
def requestTarget (f : BitVec 48) : Nat := (f.extractLsb' 40 8).toNat

/-- Tag of a request. -/
def requestTag (f : BitVec 48) : BitVec 4 := f.extractLsb' 36 4

/-- Code of a request. -/
def requestCode (f : BitVec 48) : BitVec 4 := f.extractLsb' 32 4

/-- Argument of a request. -/
def requestArg (f : BitVec 48) : Word := f.extractLsb' 0 32

/-! The status block. -/

/-- A block is valid: 32 bytes, sync A5h, and the CRC over bytes 1 to 29 as carried (R37). -/
def blockValid (bytes : List Byte) : Bool :=
  decide (bytes.length = 32) && byteAt bytes 0 == 0xA5#8 &&
    crc16 ((bytes.drop 1).take 29) == halfAt bytes 30

/-- The fields of a block by the positions of R180; bits 3-1 of byte 22 are ignored. -/
def decodeBlock (bytes : List Byte) : Block :=
  let b6 := byteAt bytes 6
  let b7 := byteAt bytes 7
  let b22 := byteAt bytes 22
  { kind := (byteAt bytes 1).extractLsb' 4 4
    slot := (byteAt bytes 1).extractLsb' 0 4
    frameNumber := wordAt bytes 2
    slow :=
      { kind := (byteAt bytes 1).extractLsb' 4 4
        cls := b6.extractLsb' 1 2
        rating := halfAt bytes 10
        digest := halfAt bytes 18
        defaultsFlag := b6.getLsbD 0 }
    fast :=
      { restorer := b6.extractLsb' 5 3
        lock := b6.extractLsb' 3 2
        active := b7.getLsbD 7
        sagNow := ⟨b7.getLsbD 6, b7.getLsbD 5, b7.getLsbD 4⟩
        demand := halfAt bytes 8
        grant := halfAt bytes 12
        bus := halfAt bytes 14
        link := halfAt bytes 16
        eventLow := halfAt bytes 20
        full := b22.extractLsb' 4 4
        rMinPercent := byteAt bytes 23
        eventClass := b7.extractLsb' 0 2
        resag := b7.getLsbD 3
        quiesce := b7.getLsbD 2
        mute := b22.getLsbD 0
        request := wordAt bytes 24 ++ halfAt bytes 28 } }

/-- A valid block is malformed: kind neither 0 nor 1, or slot 12 or more (R37). -/
def blockMalformed (b : Block) : Bool := decide (1 < b.kind.toNat) || decide (12 ≤ b.slot.toNat)

/-- The 32 bytes of a block (R180), its CRC included. -/
def encodeBlock (b : Block) : List Byte :=
  let f := b.fast
  let body : List Byte :=
    [b.kind ++ b.slot] ++ wordBytes b.frameNumber ++
    [f.restorer ++ f.lock ++ b.slow.cls ++ BitVec.ofBool b.slow.defaultsFlag,
     BitVec.ofBool f.active ++ BitVec.ofBool f.sagNow.a ++ BitVec.ofBool f.sagNow.b ++
       BitVec.ofBool f.sagNow.c ++ BitVec.ofBool f.resag ++ BitVec.ofBool f.quiesce ++ f.eventClass] ++
    halfBytes f.demand ++ halfBytes b.slow.rating ++ halfBytes f.grant ++ halfBytes f.bus ++
    halfBytes f.link ++ halfBytes b.slow.digest ++ halfBytes f.eventLow ++
    [f.full ++ 0#3 ++ BitVec.ofBool f.mute, f.rMinPercent] ++
    wordBytes (f.request.extractLsb' 16 32) ++ halfBytes (f.request.extractLsb' 0 16)
  (0xA5#8 :: body) ++ halfBytes (crc16 body)

/-- The station's own slow values (R49, R50). -/
def ownSlow (s : State) : Slow where
  kind := 0
  cls := announcedClass s
  rating := BitVec.ofNat 16 s.settings.rating
  digest := s.cfl.digest
  defaultsFlag := s.cfl.defaultsFlag

/-- The station's own fast fields, from the values that the owning blocks hold (R49, R78). -/
def ownFast (s : State) : Fast where
  restorer := s.rsq.state.code
  lock := s.pru.lock.code
  active := eventActive s
  sagNow := s.sdu.flags
  demand := BitVec.ofNat 16 s.inc.demand
  grant := BitVec.ofNat 16 s.esa.grant
  bus := BitVec.ofNat 16 s.spt.lastGood.bus
  link := BitVec.ofNat 16 s.spt.lastGood.link
  eventLow := s.rsq.eventCounter.extractLsb' 0 16
  full := BitVec.ofNat 4 (min 15 s.cst.full)
  rMinPercent := BitVec.ofNat 8 (rMinPercent s.sdu.record)
  eventClass := if eventActive s then s.evc.eventClass.code else 0
  resag := s.rsq.resag
  quiesce := s.rsq.quiesce
  mute := s.slc.membership == .mute
  request := s.rqh.reply.field

/-- The own status block of a station in slot `own` (R49). -/
def ownBlock (own : Nat) (s : State) : Block where
  kind := 0
  slot := BitVec.ofNat 4 own
  frameNumber := s.slc.frameNumber
  slow := ownSlow s
  fast := ownFast s

end Sys2Proof.Machine
end

