-- ==== Sys2Proof/Machine/Flags.lean ====
section
/-! DEFINITION. SDU's half-cycle measurement, detectors and phase flags (R20 to R25). -/

namespace Sys2Proof.Machine

/-- The sum of squares of each phase over a list of arrivals (R20). -/
def sumSquares (h : List (Phases Int)) : Phases Nat where
  a := (h.map (fun x => x.a.natAbs * x.a.natAbs)).sum
  b := (h.map (fun x => x.b.natAbs * x.b.natAbs)).sum
  c := (h.map (fun x => x.c.natAbs * x.c.natAbs)).sum

/-- R_p from S_p (R21). -/
def halfCycleRms (sum64 : Nat) : Nat := isqrt (sum64 / 64)

/-- r_p from R_p (R21). -/
def residualOf (vNom rms : Nat) : Nat := min 1500 (1000 * rms / vNom)

/-- A run count: one more while its condition holds, else 0 (R22, R23). -/
def runCount (holds : Bool) (n : Half) : Half := if holds then satInc n else 0

/-- A detector's flag: a clear one is set by the set test, a set one cleared by the clear test (R22, R23). -/
def flagAfter (flag setNow clearNow : Bool) : Bool := if flag then !clearNow else setNow

/-- One phase's two detectors at an arrival: residual r, stored sample and voltage of the phase (R22, R23). -/
def detectorAfter (c : Config.Settings) (refValid : Bool) (refSample v : Int) (r : Nat) (d : Detector) : Detector :=
  let below := runCount (decide (r < c.sagThreshold)) d.belowRun
  let above := runCount (decide (c.recoverThreshold ≤ r)) d.aboveRun
  let far := decide (c.instThreshold < (refSample - v).natAbs)
  let over' := if refValid then runCount far d.overRun else 0
  let within' := if refValid then runCount (!far) d.withinRun else 0
  { rmsFlag := flagAfter d.rmsFlag (decide (c.rmsPersistence ≤ below.toNat))
      (decide (c.recoverPersistence ≤ above.toNat))
    belowRun := below
    aboveRun := above
    instFlag := refValid && flagAfter d.instFlag (decide (c.instPersistence ≤ over'.toNat))
      (decide (c.recoverPersistence ≤ within'.toNat))
    overRun := over'
    withinRun := within' }

/-- The stored sample of index k on each phase (R18). -/
def storedSample (r : RefCycle) (k : Nat) : Phases Int := r.samples.getD k (Phases.same 0)

/-- SDU's windows, residuals, detectors and flags at the arrival of a set of index k (R20 to R25). The onset record
and the recovery count are not touched. -/
def measureSet (k : Nat) (v : Phases Int) (s : State) : State :=
  let c := s.settings
  let history := (v :: s.sdu.history).take 128
  let sum64 := sumSquares (history.take 64)
  let rms := sum64.map halfCycleRms
  let residual := rms.map (residualOf c.vNom)
  let ref := storedSample s.pru.ref k
  let step := fun p => detectorAfter c s.pru.ref.valid (ref.get p) (v.get p) (residual.get p) (s.sdu.detectors.get p)
  let detectors : Phases Detector := ⟨step .a, step .b, step .c⟩
  { s with sdu := { s.sdu with
      history := history
      sum64 := sum64
      sum128 := sumSquares history
      rms := rms
      residual := residual
      detectors := detectors
      flags := detectors.map (fun d => d.rmsFlag || d.instFlag)
      prevFlags := s.sdu.flags } }

end Sys2Proof.Machine
end

