-- ==== Sys2Proof/Machine/Sequencer.lean ====
section
/-! DEFINITION. RSQ's changes of state that need no other block's reaction: service, exits from INJECT, re-sag,
per-set runs (R110 to R125). -/

namespace Sys2Proof.Machine

/-- CHARGE to READY, when link, lock and line allow (R111). -/
def readyTest (s : State) : State :=
  if s.rsq.state = .charge ∧ s.settings.linkReady ≤ s.spt.lastGood.link ∧ s.pru.lock = .locked ∧ onLine s = true
  then { s with rsq.state := .ready } else s

/-- RSQ takes a change of lock state that PRU hands it (R111, R112). -/
def lockHanded (s : State) : State :=
  if s.pru.lock = .acquire then
    (if s.rsq.state = .ready then { s with rsq.state := .charge } else s)
  else readyTest s

/-- RSQ's test at an arrival for entering or leaving READY. An onset acted on at this arrival excludes the exit to
CHARGE (R111, R112, R113). -/
def serviceTest (s : State) : State :=
  if s.rsq.state = .ready then
    (if s.spt.lastGood.link < s.settings.linkMin ∧ s.rsq.onsetArrival = false
     then { s with rsq.state := .charge } else s)
  else readyTest s

/-- The entry to CHARGE from OFF, which an active fault input turns into LOCKOUT at once (R110, R128). -/
def enterCharge (s : State) : State :=
  { s with rsq.state := if faultActive s then .lockout else .charge }

/-- OFF is left once the settings are in force with valid straps and ENABLE is asserted (R110). -/
def leaveOff (s : State) : State :=
  if s.rsq.state = .off ∧ inForce s = true ∧ (ownSlot s).isSome = true ∧ s.pins.enable = true
  then enterCharge s else s

/-- An exit from INJECT to RELEASE with its cause; INC's ramp count returns to 0 (R99, R117). In any other state the
exit finds nothing to do. -/
def exitInject (cause : EndCause) (s : State) : State :=
  if s.rsq.state = .inject then
    { s with
      rsq := { s.rsq with state := .release, endCause := cause, rampDone := false }
      inc.rampCount := 0 }
  else s

/-- The return from RELEASE to INJECT by a re-sag (R99, R125). -/
def returnToInject (s : State) : State :=
  { s with
    rsq := { s.rsq with
      state := .inject
      bypassOpen := Phases.same true
      waits := Phases.same none
      rampDone := false
      resag := true
      linkLow := 0 }
    inc := { s.inc with ramp := Config.one, rampCount := 0 } }

/-- RSQ takes a re-sag (R118, R125). -/
def takeResag (s : State) : State :=
  if s.evc.withdrawn = false ∧ s.pins.enable = true then returnToInject s
  else { s with rsq.linkLow := 0 }

/-- The link-low run at an arrival in INJECT other than the onset arrival; at 4 the event leaves INJECT (R118). -/
def linkRunTest (s : State) : State :=
  if s.rsq.state = .inject ∧ s.rsq.onsetArrival = false then
    let n := if s.spt.lastGood.link < s.settings.linkMin then s.rsq.linkLow + 1 else 0
    if 4 ≤ n then exitInject .exhausted { s with rsq.linkLow := 4 } else { s with rsq.linkLow := n }
  else s

/-- RSQ's zero-budget check at a frame end (R118). -/
def exhaustTest (s : State) : State :=
  if 2 ≤ s.esa.zeroCount.toNat then exitInject .exhausted s else s

/-- The restorer state after an event that ends without LOCKOUT (R124). -/
def releaseTarget (s : State) : RestorerState :=
  if s.pins.enable = false then .off
  else if s.settings.linkReady ≤ s.spt.lastGood.link then .ready else .charge

/-- The event's end at RSQ: bypasses closed, bridge off, waits ended, end causes set, the state after it entered
(R124, R126, R128, R129). -/
def closeEvent (cause : EndCause) (target : RestorerState) (s : State) : State :=
  { s with rsq := { s.rsq with
      state := target
      bypassOpen := Phases.same false
      bridge := false
      waits := Phases.same none
      endCause := cause
      lastEndCause := cause } }

/-- The next event number: 1 follows the greatest (R115). -/
def nextEvent (n : Word) : Word := if n = BitVec.allOnes 32 then 1 else n + 1

/-- Close waits begin at the arrival after the ramp has reached 0, for every phase whose bypass is open (R122, R123). -/
def beginWaits (s : State) : State :=
  if s.rsq.state = .release ∧ s.rsq.rampDone = true then
    { s with
      rsq.waits := Phases.map2 (fun isOpen w => if isOpen && w.isNone then some 0 else w)
        s.rsq.bypassOpen s.rsq.waits }
  else s

end Sys2Proof.Machine
end

