-- ==== Sys2Proof/Machine/Injection.lean ====
section
/-! DEFINITION. INC: the injection chain, the ramp, the demand window, the energy sum and the event record (R68, R69,
R89 to R106). -/

namespace Sys2Proof.Machine

/-- The raw value under PRESAG (R92). -/
def rawPresag (refSample v : Int) : Int := refSample - v

/-- The raw value under INPHASE, from V_nom, the live RMS, the target and the voltage (R93). -/
def rawInphase (vNom rms target : Nat) (v : Int) : Int :=
  let r : Nat := max rms (vNom / 10)
  Int.tdiv (v * ((target : Int) - r)) r

/-- The target RMS of a phase (R93). -/
def targetRms (s : State) (p : Phase) : Nat := if fresh s then s.pru.ref.rms.get p else s.settings.vNom

/-- The raw value of one phase at a set of index k (R91 to R93). -/
def rawValue (s : State) (k : Nat) (set : SampleSet) (p : Phase) : Int :=
  match s.inc.method with
  | .presag => rawPresag ((storedSample s.pru.ref k).get p) (set.v.get p)
  | .inphase => rawInphase s.settings.vNom (s.sdu.rms.get p) (targetRms s p) (set.v.get p)

/-- The raw values of a set. -/
def rawValues (s : State) (k : Nat) (set : SampleSet) : Phases Int :=
  ⟨rawValue s k set .a, rawValue s k set .b, rawValue s k set .c⟩

/-- U_link of a set (R95). -/
def linkLimitOf (c : Config.Settings) (link : Nat) : Nat := link * 45 * c.turns / 100000

/-- A value scaled by a fraction of 32768, rounded toward zero (R97, R98). -/
def scale (f : Nat) (u : Int) : Int := Int.tdiv (u * f) 32768

/-- The power of three values and the load currents, in 0.1 W (R68, R103). -/
def power (u i : Phases Int) : Int := sum3 (Phases.map2 (fun x y => x * y) u i)

/-- The ramp step of a handled set: in RELEASE the count advances and the factor falls; a factor at 0 is reported to
RSQ (R99, R122). -/
def rampStep (s : State) : State :=
  if s.rsq.state = .release then
    let l := s.settings.rampLength
    let n := min (s.inc.rampCount + 1) l
    let a := Config.one * (l - n) / l
    { s with
      inc := { s.inc with rampCount := n, ramp := a }
      rsq.rampDone := s.rsq.rampDone || a == 0 }
  else s

/-- The clamped values u_c of a set (R94, R95). -/
def clampedValues (s : State) (k : Nat) (set : SampleSet) : Phases Int :=
  ((rawValues s k set).map (saturate s.settings.uMax)).map (saturate (linkLimitOf s.settings set.link))

/-- INC handles an arrival in INJECT or RELEASE, except one on which an onset was acted on (R89). An arrival that both
ends one event and takes the next onset (R27) is handled, for the event that ends, when INC's work comes before the end:
R89's two sentences differ there, and this is the model's choice (log 36). -/
def handles (s : State) : Bool := eventActive s && !s.rsq.onsetArrival

/-- INC's work on a set of index k (R89 to R103). A clamp that acts leaves u_c different from the raw value, since
each brings a value nearer to 0 (R96). -/
def injectSet (k : Nat) (set : SampleSet) (s : State) : State :=
  if handles s then
    let s1 := rampStep s
    let uc := clampedValues s k set
    let ur := uc.map (scale s1.inc.ramp)
    let uo := ur.map (scale s1.inc.ratio)
    { s1 with inc := { s1.inc with
        port := uo
        limited := s.inc.limited || uc != rawValues s k set
        energy := s.inc.energy + power uo set.i
        pDem := s.inc.pDem + power ur set.i
        nDem := s.inc.nDem + 1 } }
  else s

/-- INC opens its event record at an onset (R90). -/
def openRecord (s : State) : State :=
  { s with inc := { s.inc with
      method := if fresh s then .presag else .inphase
      limited := false
      energy := 0
      lowest := Config.one } }

/-- What an onset taken into INJECT sets at INC beside the record (R67, R68, R90, R99, R101). -/
def startInjection (s : State) : State :=
  { s with inc := { s.inc with
      ratio := Config.one
      ramp := Config.one
      rampCount := 0
      pDem := 0
      nDem := 0
      port := Phases.same 0 } }

/-- The energy of the event in joules (R104). -/
def joules (s : State) : Int :=
  max (-2147483648) (min (Int.fdiv s.inc.energy (1280 * s.settings.fNom)) 2147483647)

/-- The own demand set at a frame end, and the window returned to zero (R69). -/
def setDemand (s : State) : State :=
  { s with inc := { s.inc with
      demand :=
        if eventActive s then
          (if s.inc.nDem = 0 then s.inc.demand
           else min s.settings.rating (ceilDiv s.inc.pDem.toNat (s.inc.nDem * 10000)))
        else 0
      pDem := 0
      nDem := 0 } }

/-- A new ratio in force at INC; during an event the lowest ratio takes the lesser (R67, R105). -/
def handRatio (g : Nat) (s : State) : State :=
  { s with inc := { s.inc with
      ratio := g
      lowest := if eventActive s then min s.inc.lowest g else s.inc.lowest } }

end Sys2Proof.Machine
end

