-- ==== Sys2Proof/Machine/Capture.lean ====
section
/-! DEFINITION. CST: layouts, the ring of slots, opening, filling, completion, summaries and release of captures
(R135 to R153, R181). -/

namespace Sys2Proof.Machine

/-- The layout of a layout code (R135). -/
def layoutOf (code : Nat) : Layout := if code = 0 then .code0 else if code = 1 then .code1 else .code2

/-- Slots S of a layout (R135). -/
def Layout.slots : Layout → Nat
  | .code0 => 4
  | .code1 => 8
  | .code2 => 16

/-- Record cycles C of a layout (R135). -/
def Layout.cycles : Layout → Nat
  | .code0 => 16
  | .code1 => 8
  | .code2 => 4

/-- Sets in a slot (R135). -/
def Layout.sets (l : Layout) : Nat := 128 * l.cycles

/-- The state of slot n: the FULL slots run from the oldest pointer, a FILLING slot is the fill slot (R136; log 22). -/
def slotState (c : Cst) (l : Layout) (n : Nat) : SlotState :=
  if (n + l.slots - c.oldest) % l.slots < c.full then .full
  else if n = c.fill ∧ c.filling.isSome = true then .filling
  else .free

/-- The fill slot is FULL: every slot holds a record (R136). -/
def ringFull (c : Cst) (l : Layout) : Bool := decide (l.slots ≤ c.full)

/-! The capture memory. -/

/-- The six channels of a set as stored, 12 bytes (R137, R151, R181). -/
def setBytes (x : CapturedSet) : List Byte :=
  [x.v.a, x.v.b, x.v.c, x.i.a, x.i.b, x.i.c].flatMap (fun n => halfBytes (BitVec.ofInt 16 n))

/-- Byte address of position q of a slot (R135, R151; log 23). -/
def setAddr (l : Layout) (slot q : Nat) : Nat := (slot * l.sets + q) * 12

/-- Byte address of a slot's summary area (log 23). -/
def summaryAddr (slot : Nat) : Nat := Config.summaryBase + slot * 64

/-- Sets written at rising positions of a slot. -/
def writeSets (l : Layout) (slot : Nat) : Nat → List CapturedSet → List Host.Cell → List Host.Cell
  | _, [], m => m
  | q, x :: xs, m => writeSets l slot (q + 1) xs (Memory.writeBytes m (setAddr l slot q) (setBytes x))

/-- The record word w of a slot: summary words, then three words a set (R151). -/
def recordWord (c : Cst) (l : Layout) (slot w : Nat) : Word :=
  if w < 16 then Memory.readWord c.mem (summaryAddr slot + 4 * w)
  else Memory.readWord c.mem (setAddr l slot 0 + 4 * (w - 16))

/-! Summaries. -/

/-- The summary method code (R181). -/
def methodCode : Option Method → Byte
  | some .presag => 0
  | some .inphase => 1
  | none => 3

/-- The sixteen summary words (R181). -/
def summaryWords (m : Summary) : List Word :=
  let h := fun n => BitVec.ofNat 16 n
  let flags : Byte := 0#2 ++ BitVec.ofBool m.delayed ++ BitVec.ofBool m.test ++ BitVec.ofBool m.resag ++
    BitVec.ofBool m.classed.stale ++ BitVec.ofBool m.limited ++ BitVec.ofBool m.truncated
  [ m.onset.event,
    m.onset.frameNumber,
    h m.onset.position ++ m.onset.refAge,
    m.endFrame,
    h m.endPosition ++ 0#16,
    m.duration,
    BitVec.ofInt 32 m.energy,
    h m.lowest ++ (match m.classed.matched with | some n => h n | none => 0xFFFF#16),
    h m.classed.rMin.a ++ h m.classed.rMin.b,
    h m.classed.rMin.c ++ 0#16,
    m.classed.eventClass.code.setWidth 8 ++ BitVec.ofNat 8 m.classed.coincidence ++
      m.classed.mask.bits.setWidth 8 ++ methodCode m.method,
    m.cause.code.setWidth 8 ++ flags ++ BitVec.ofNat 8 m.cycles ++ 0#8,
    0, 0, 0, 0 ]

/-- What EVC and SDU hold for their latest event (R144). -/
def classFields (s : State) : ClassFields where
  eventClass := s.evc.eventClass
  coincidence := s.evc.coincidence
  matched := s.evc.matched
  stale := s.evc.stale
  mask := s.sdu.record.sinceMask
  rMin := s.sdu.record.rMin

/-- What is handed at an event's end (R106, R124, R144). -/
def endFields (s : State) : EndFields where
  frameNumber := s.slc.frameNumber
  position := framePosition s
  energy := joules s
  lowest := s.inc.lowest
  method := s.inc.method
  limited := s.inc.limited
  cause := s.rsq.endCause
  resag := s.rsq.resag

/-- The summary of an event capture (R144). -/
def eventSummary (s : State) (c : Capture) : Summary :=
  let e := c.making.ended.getD (endFields s)
  { onset := c.making.onset
    endFrame := e.frameNumber
    endPosition := e.position
    duration := c.making.duration
    energy := e.energy
    lowest := e.lowest
    classed := c.making.classed.getD (classFields s)
    method := some e.method
    cause := e.cause
    truncated := c.truncated
    limited := e.limited
    resag := e.resag
    test := false
    delayed := c.delayed
    cycles := c.written / 128 }

/-- The summary of a test capture (R150); closed at a soft reset it is truncated (R153). -/
def testSummary (s : State) (c : Capture) (truncated : Bool) : Summary where
  onset := c.making.onset
  endFrame := s.slc.frameNumber
  endPosition := framePosition s
  duration := 0
  energy := 0
  lowest := Config.one
  classed :=
    { eventClass := .pending, coincidence := 0, matched := none, stale := false
      mask := Phases.same false, rMin := Phases.same 1500 }
  method := none
  cause := .test
  truncated := truncated
  limited := false
  resag := false
  test := true
  delayed := false
  cycles := c.written / 128

/-! Opening. -/

/-- The onset fields as they stand (R138). -/
def onsetFields (s : State) : OnsetFields where
  event := s.rsq.event
  frameNumber := s.slc.frameNumber
  position := framePosition s
  refAge := s.pru.ref.age

/-- A capture opens in the fill slot: its summary area is cleared and record cycle 0 is the history (R138). -/
def openSlot (l : Layout) (m : Making) (tail : Option Nat) (delayed test : Bool) (c : Cst) : Cst :=
  { c with
    mem := writeSets l c.fill 0 c.history
      (Memory.writeBytes c.mem (summaryAddr c.fill) (List.replicate 64 0))
    filling := some
      { making := m, written := 128, tail := tail, truncated := false, delayed := delayed, test := test } }

/-- One more missed capture (R139). -/
def missCapture (c : Cst) : Cst := { c with missed := satInc c.missed }

/-- The opening asked for at an onset: it opens, takes over a test capture's slot, queues, or is missed
(R138, R139, R140, R149). -/
def captureOnset (s : State) : State :=
  let m : Making := { onset := onsetFields s, duration := 1, ended := none, classed := none }
  let cst :=
    match s.cst.layout, s.cst.filling with
    | none, _ => missCapture s.cst
    | some l, none => if ringFull s.cst l then missCapture s.cst else openSlot l m none false false s.cst
    | some l, some c =>
      if c.test then openSlot l m none false false s.cst
      else if c.tail.isSome && s.cst.queued.isNone then { s.cst with queued := some { making := m, atOnset := true } }
      else missCapture s.cst
  { s with cst := cst }

/-- The class fields of an event that has ended are taken at a later onset, before EVC and SDU open their state for
it (R144). -/
def Making.takeClass (f : ClassFields) (m : Making) : Making :=
  if m.ended.isSome && m.classed.isNone then { m with classed := some f } else m

/-- R144: at an onset, the captures of events that have ended take their class fields. -/
def takeClassFields (s : State) : State :=
  let f := classFields s
  { s with cst := { s.cst with
      filling := s.cst.filling.map (fun c => { c with making := c.making.takeClass f })
      queued := s.cst.queued.map (fun q => { q with making := q.making.takeClass f }) } }

/-! Filling. -/

/-- The duration count goes on at each arrival until the event has ended (R145). -/
def Making.countArrival (m : Making) : Making :=
  if m.ended.isNone then { m with duration := satInc m.duration } else m

/-- CST's work on a set: history, the write into the filling slot, tail and duration counts (R137, R141, R142, R145).
It is taken before the other blocks' work on the arrival; the records are the same in either order (log 6). -/
def captureSet (set : SampleSet) (s : State) : State :=
  let x : CapturedSet := ⟨set.v, set.i⟩
  let c := s.cst
  let c1 : Cst :=
    { c with
      history := c.history.drop 1 ++ [x]
      queued := c.queued.map (fun q => { making := q.making.countArrival, atOnset := false }) }
  let c2 : Cst :=
    match c.layout, c.filling with
    | some l, some f =>
      let room := decide (f.written < l.sets)
      let inEvent := !f.test && f.making.ended.isNone
      { c1 with
        mem := if room then Memory.writeBytes c.mem (setAddr l c.fill f.written) (setBytes x) else c.mem
        filling := some
          { f with
            making := if f.test then f.making else f.making.countArrival
            written := if room then f.written + 1 else f.written
            tail := f.tail.map (fun n => n + 1)
            truncated := f.truncated || (inEvent && !room) } }
    | _, _ => c1
  { s with cst := c2 }

/-! Completion. -/

/-- The capture in fill is due to complete (R142, R148). -/
def captureDue (s : State) : Bool :=
  match s.cst.layout, s.cst.filling with
  | some l, some c =>
    let slotFull := decide (l.sets ≤ c.written)
    if c.test then slotFull
    else match c.tail with
      | none => false
      | some n => slotFull || (decide (128 * s.settings.postTail ≤ n) && c.written % 128 == 0)
  | _, _ => false

/-- The queued opening is made in the new fill slot, or dropped as missed when that slot is FULL (R140, R142). -/
def openQueued (l : Layout) (q : Queued) (c : Cst) : Cst :=
  if ringFull c l then missCapture c
  else openSlot l q.making (if q.making.ended.isSome then some 0 else none) (!q.atOnset) false c

/-- The summary stands in the slot, the slot is FULL and the fill pointer moves on (R143 steps 2 to 4). -/
def fileRecord (l : Layout) (m : Summary) (c : Cst) : Cst :=
  { c with
    mem := Memory.writeBytes c.mem (summaryAddr c.fill) ((summaryWords m).flatMap wordBytes)
    full := c.full + 1
    fill := (c.fill + 1) % l.slots
    filling := none
    queued := none }

/-- The completion of the capture in fill, with the opening queued behind it (R143). -/
def complete (s : State) : State :=
  match s.cst.layout, s.cst.filling with
  | some l, some c =>
    let filed := fileRecord l (if c.test then testSummary s c false else eventSummary s c) s.cst
    { s with cst := match s.cst.queued with | some q => openQueued l q filed | none => filed }
  | _, _ => s

/-- Completion of the capture if it is due. A queued opening of an event that has ended can itself be due at once,
with a post tail of 0 (R142, R143). -/
def completeDue (s : State) : State :=
  if captureDue s then
    (if captureDue (complete s) then complete (complete s) else complete s)
  else s

/-! The event's end, release and soft reset. -/

/-- The capture of the event that ends takes what is handed and begins its post tail (R142, R144); a queued one takes
the fields (R140). -/
def captureEnded (s : State) : State :=
  let e := endFields s
  let ends := fun (m : Making) => m.onset.event == s.rsq.event && m.ended.isNone
  { s with cst := { s.cst with
      filling := s.cst.filling.map (fun c =>
        if !c.test && ends c.making then { c with making := { c.making with ended := some e }, tail := some 0 } else c)
      queued := s.cst.queued.map (fun q =>
        if ends q.making then { q with making := { q.making with ended := some e } } else q) } }

/-- A capture "no": the event's filling slot becomes FREE, or its queued opening is cancelled (R85, R146). -/
def releaseCapture (s : State) : State :=
  { s with cst := { s.cst with
      filling := s.cst.filling.filter (fun c => c.test || c.making.onset.event != s.rsq.event)
      queued := s.cst.queued.filter (fun q => q.making.onset.event != s.rsq.event) } }

/-- CST at a soft reset: a FILLING slot is closed as FULL and truncated, the queued opening abandoned, the history
zeroed, the rest kept (R153). The summary of a test capture closed here reads the position as it stood before SLC's own
reset: the model's choice (log 40). -/
def captureSoftReset (s : State) : Cst :=
  let c := match s.cst.layout, s.cst.filling with
    | some l, some f => fileRecord l (testSummary s f true) s.cst
    | _, _ => s.cst
  { c with queued := none, history := zeroHistory }

end Sys2Proof.Machine
end

