-- ==== Sys2Proof/Machine/Classifier.lean ====
section
/-! DEFINITION. EVC: the response table search, the application of an action, the confirmation window, and the event's
end handed to every block (R74 to R87, R124). -/

namespace Sys2Proof.Machine

/-- An entry in force matches the event (R79, R80): a void entry has lo above hi and matches no depth. -/
def entryMatches (e : TableEntry) (cls : EventClass) (count depth : Nat) : Bool :=
  (match e.classMatch, cls with
    | .any, _ => true
    | .grid, .grid => true
    | .localOnly, .localOnly => true
    | _, _ => false) &&
  decide (1 ≤ count) && e.phaseSet.getLsbD (count - 1) && decide (e.lo ≤ depth) && decide (depth ≤ e.hi)

/-- The first entry that matches, with its index, searching from index `n` (R80). -/
def searchFrom (cls : EventClass) (count depth : Nat) : Nat → List TableEntry → Option (Nat × TableEntry)
  | _, [] => none
  | n, e :: es => if entryMatches e cls count depth then some (n, e) else searchFrom cls count depth (n + 1) es

/-- The search of the table with the onset record as it stands (R80). -/
def searchTable (cls : EventClass) (s : State) : Option (Nat × TableEntry) :=
  searchFrom cls s.sdu.record.sinceMask.count (depth s.sdu.record) 0 s.evc.table

/-- The method of the action found; the default action's is the onset method, which is the method in use until
classification (R81, R91). -/
def actionMethod (s : State) : Option TableEntry → TableMethod
  | some e => e.method
  | none => match s.inc.method with
    | .presag => .presag
    | .inphase => .inphase

/-- The method settled at classification, with the fallback and its stale flag (R82). -/
def settleMethod (m : TableMethod) (s : State) : State :=
  match m with
  | .presag =>
    if fresh s then { s with inc.method := .presag }
    else { s with inc.method := .inphase, evc.stale := true }
  | .inphase => { s with inc.method := .inphase }
  | .withdraw => s

/-- A withdrawal: the mark is set and an injecting restorer leaves for RELEASE (R83, R119). -/
def withdraw (m : TableMethod) (s : State) : State :=
  match m with
  | .withdraw => exitInject .withdrawn { s with evc.withdrawn := true }
  | _ => s

/-- The class override of an action; KEEP leaves the configured class (R84). -/
def putOverride (o : Option (BitVec 2)) (s : State) : State := { s with evc.override := o }

/-- EVC compares the count of cycle ends with the limit in force (R86). A restorer in INJECT is handed the expiry, or
the expiry is left to a step of its own. -/
def compareLimit (apart : Bool) (s : State) : State :=
  match s.evc.limit with
  | some n =>
    if n ≤ s.evc.cycles.toNat ∧ s.rsq.state = .inject then
      (if apart then { s with evc.expiryDue := true } else exitInject .duration s)
    else s
  | none => s

/-- The duration limit of an action, in force and compared at once (R86); 0 is none. -/
def putLimit (n : Nat) (apart : Bool) (s : State) : State :=
  if n = 0 then { s with evc.limit := none } else compareLimit apart { s with evc.limit := some n }

/-- The action of a classification made while the event is active (R82 to R86). Withdrawal and limit both reach RSQ;
which is taken first is the operand (log 20). -/
def applyAction (limitFirst apart : Bool) (e : Option TableEntry) (s : State) : State :=
  let m := actionMethod s e
  let n := (e.map TableEntry.limit).getD 0
  let s1 := putOverride (e.bind TableEntry.override) (settleMethod m s)
  let s2 := if limitFirst then withdraw m (putLimit n apart s1) else putLimit n apart (withdraw m s1)
  if (e.map TableEntry.capture).getD true then s2 else releaseCapture s2

/-- A classification while the event is active: class, closed window, search, action (R76, R80, R81). -/
def classify (limitFirst apart : Bool) (cls : EventClass) (s : State) : State :=
  let found := searchTable cls s
  applyAction limitFirst apart (found.map Prod.snd)
    { s with evc := { s.evc with eventClass := cls, window := false, matched := found.map Prod.fst } }

/-- EVC at an onset taken into INJECT (R74, R87). -/
def openWindow (s : State) : State :=
  let s1 := { s with evc := { s.evc with
      eventClass := .pending
      window := true
      windowCount := 0
      coincidence := 0
      matched := none
      override := none
      limit := none
      cycles := 0
      withdrawn := false
      stale := false
      expiryDue := false } }
  if s.settings.k = 0 then classify false false .grid s1 else s1

/-- EVC at a refused onset (R74); the count of cycle ends returns to 0 at each onset (R86; log 19). The withdrawal mark and
the duration limit of the event before stay as they stand until the next onset taken into INJECT: R83 and R87 let them
stand until the next onset, and R74 clears neither at a refused one. This is the model's choice (log 37). -/
def refusedAtClassifier (s : State) : State :=
  { s with evc := { s.evc with
      eventClass := .pending
      window := false
      coincidence := 0
      matched := none
      cycles := 0
      stale := false } }

/-- A peer entry counts as a witness (R75). -/
def witness (mask : Phases Bool) (e : PeerEntry) : Bool :=
  e.state == .live && (match e.slow with | some w => w.kind == 0 | none => false) &&
    (mask.meet (e.fast.sagNow.join e.sagPrev)).any

/-- The coincidence count (R75). -/
def coincidences (s : State) : Nat :=
  (List.range 12).countP (fun j =>
    ownSlot s != some j && witness s.sdu.record.sinceMask (s.slc.peers.getD j PeerEntry.absent))

/-- EVC's window at a frame end (R75, R76). -/
def windowStep (limitFirst apart : Bool) (s : State) : State :=
  if s.evc.window then
    let n := coincidences s
    let s1 := { s with evc := { s.evc with coincidence := n, windowCount := s.evc.windowCount + 1 } }
    if s.settings.k ≤ n then classify limitFirst apart .grid s1
    else if 2 ≤ s.evc.windowCount + 1 then classify limitFirst apart .localOnly s1
    else s1
  else s

/-! The event's end. -/

/-- What EVC records of an event that ends with its window open (R77). -/
def endClass (s : State) : EventClass := if s.settings.k ≤ s.evc.coincidence then .grid else .localOnly

/-- The search made at the end of an event whose window is still open (R77). -/
def endSearch (s : State) : Option (Nat × TableEntry) :=
  if s.evc.window then searchTable (endClass s) s else none

/-- The action found at the event's end says capture "no" (R87). -/
def endCaptureNo (s : State) : Bool := ((endSearch s).map (fun p => !p.2.capture)).getD false

/-- EVC at the event's end: classification if the window is open, and the override reverted (R77, R84). -/
def classifyAtEnd (s : State) : State :=
  if s.evc.window then
    { s with evc := { s.evc with
        eventClass := endClass s
        window := false
        matched := (endSearch s).map Prod.fst
        override := none
        expiryDue := false } }
  else { s with evc := { s.evc with override := none, expiryDue := false } }

/-- A capture "no" at the event's end is taken when it is one. -/
def releaseIf (no : Bool) (s : State) : State := if no then releaseCapture s else s

/-- The completion of a capture at the event's end and the capture "no" of a classification there, in the order of
the operand (R142, R146; log 7). -/
def settleRecord (k : CompletionTaking) (no : Bool) (s : State) : State :=
  match k with
  | .afterNo => completeDue (releaseIf no s)
  | .beforeNo => releaseIf no (completeDue s)
  | .apart => releaseIf no s

/-- The port at 0, the onset record closed, and the event's end noted for its cycle (R17, R28, R101, R124). -/
def quietBlocks (s : State) : State :=
  { s with
    inc.port := Phases.same 0
    sdu.record.isOpen := false
    pru.cycle.eventEnded := true }

/-- The event's end, handed by RSQ once its own change is made, at SDU, INC, CST, EVC and PRU (R124). -/
def handEnd (k : CompletionTaking) (s : State) : State :=
  let s1 := captureEnded (quietBlocks s)
  settleRecord k (endCaptureNo s1) (classifyAtEnd s1)

/-- The event ends: RSQ's change, then its handing (R124). -/
def endEvent (k : CompletionTaking) (cause : EndCause) (target : RestorerState) (s : State) : State :=
  handEnd k (closeEvent cause target s)

/-- A fault takes the restorer to LOCKOUT, ending an active event abruptly; in OFF and LOCKOUT nothing changes
(R128, R129). -/
def faultTaken (k : CompletionTaking) (cause : EndCause) (s : State) : State :=
  if s.rsq.state = .inject ∨ s.rsq.state = .release then endEvent k cause .lockout s
  else if s.rsq.state = .charge ∨ s.rsq.state = .ready then { s with rsq.state := .lockout }
  else s

/-! Onsets. -/

/-- SDU opens its onset record (R28) and the recovery count returns to 0 (R30). -/
def openOnsetRecord (s : State) : State :=
  { s with sdu := { s.sdu with
      record :=
        { isOpen := true
          onsetMask := s.sdu.flags
          sinceMask := s.sdu.flags
          rMin := s.sdu.residual }
      recovery := 0 } }

/-- RSQ gives the onset its event number (R113, R114, R115). -/
def numberOnset (s : State) : State :=
  { s with rsq := { s.rsq with
      eventCounter := nextEvent s.rsq.eventCounter
      event := nextEvent s.rsq.eventCounter
      onsetArrival := true } }

/-- RSQ takes an onset into INJECT (R113, R116). -/
def enterInject (s : State) : State :=
  { s with rsq := { s.rsq with
      state := .inject
      bypassOpen := Phases.same true
      bridge := true
      waits := Phases.same none
      rampDone := false
      linkLow := 0
      overRun := 0
      endCause := .none
      resag := false } }

/-- RSQ refuses an onset (R114). -/
def refuseOnset (s : State) : State :=
  { s with rsq := { s.rsq with endCause := .exhausted, lastEndCause := .exhausted, resag := false } }

/-- An onset handed to a READY restorer, at every block it reaches: taken with a last budget above 0, else refused
(R26, R74, R90, R113, R114, R138, R144). -/
def takeOnset (k : CompletionTaking) (s : State) : State :=
  let s1 := openRecord (numberOnset (openOnsetRecord (takeClassFields s)))
  if 0 < s.esa.budget then openWindow (captureOnset (startInjection (enterInject s1)))
  else handEnd k (captureOnset (refusedAtClassifier (refuseOnset s1)))

end Sys2Proof.Machine
end

