-- ==== Sys2Proof/Machine/PhaseRef.lean ====
section
/-! DEFINITION. PRU: strobe times, the crossing test, the evaluation of a cycle and the reference cycle store (R8 to
R19), and what a cycle end does at EVC and RSQ. -/

namespace Sys2Proof.Machine

/-! Strobe times. An interval is 10^12·(2048 + d_c)/(262144·f_est) nanoseconds, which is T·(1 + d_c/2048) (R8). -/

/-- Numerator of a run's interval in nanoseconds (R8). -/
def Run.num (r : Run) : Nat := 1000000000000 * (2048 + r.dc).toNat

/-- Denominator of a run's interval in nanoseconds (R8). -/
def Run.den (r : Run) : Nat := 262144 * r.fEst

/-- The instant of strobe k of a run; 128 is the first strobe of the next run (R8; log 3). -/
def Run.strobeAt (r : Run) (k : Nat) : Nat := r.start + k * r.num / r.den

/-- Half an interval of a run: the arrival deadline after a strobe (R3). -/
def Run.half (r : Run) : Nat := r.num / (2 * r.den)

/-- The instant of the next strobe, if a run is in progress. -/
def nextStrobe (p : Pru) : Option Nat :=
  p.run.map (fun r => r.strobeAt (if p.index = 0 then 128 else p.index))

/-- The strobe of index 0 at an instant begins a run fixed by the values then in force, and with it the next cycle, in
which no event has ended yet (R8, R17; log 27). -/
def beginRun (t : Nat) (s : State) : State :=
  let r : Run := { start := t, fEst := s.pru.fEst, dc := s.pru.dc }
  { s with
    pru := { s.pru with run := some r, index := 1, cycle.eventEnded := false }
    spt.outstanding := some { index := 0, deadline := t + r.half } }

/-- A strobe of index 1..127 of the run in progress (R8). -/
def raiseStrobe (r : Run) (t : Nat) (s : State) : State :=
  { s with
    spt.outstanding := some { index := s.pru.index, deadline := t + r.half }
    pru.index := (s.pru.index + 1) % 128 }

/-! The crossing test. -/

/-- The crossing position d in sixteenths of a sample, from the index and the two voltages (R9). -/
def crossingD (k : Nat) (before v : Int) : Int :=
  let delta := v - before
  let d0 := roundDiv (16 * (k * delta - v)) delta
  if d0 ≤ 1023 then d0 else d0 - 2048

/-- A positive crossing between two voltages (R9). -/
def crosses (before : Option Int) (v : Int) : Bool :=
  match before with
  | some b => decide (b < 0) && decide (0 ≤ v)
  | none => false

/-- A residual within 900..1100 (R17). -/
def residualHealthy (r : Nat) : Bool := decide (900 ≤ r) && decide (r ≤ 1100)

/-- PRU notes a set of index k: crossing, marks of the cycle, candidate buffer (R9, R10, R16, R17). The mark of an event
that has ended in the cycle begins with the cycle's run, not with its first set (R8, R17; log 27). -/
def noteSet (k : Nat) (v : Phases Int) (missing : Bool) (s : State) : State :=
  let c := if k = 0 then Cycle.start else s.pru.cycle
  let cross := crosses s.pru.prevVA v.a
  let cycle : Cycle :=
    { crossings := c.crossings + cross.toNat
      firstD := if cross && c.firstD.isNone then some (crossingD k (s.pru.prevVA.getD 0) v.a) else c.firstD
      lowA := c.lowA || decide (s.sdu.residual.a < 500)
      missing := c.missing || missing
      unhealthy := c.unhealthy || s.sdu.flags.any || !(s.sdu.residual.map residualHealthy).all
      eventEnded := s.pru.cycle.eventEnded }
  { s with pru := { s.pru with
      cycle := cycle
      candidate := s.pru.candidate.set k v
      prevVA := some v.a } }

/-! The cycle end. -/

/-- The four conditions of a good cycle (R10). -/
def fourConditions (c : Cycle) : Bool :=
  c.crossings == 1 && (match c.firstD with | some d => decide (d.natAbs ≤ 32) | none => false) &&
    !c.lowA && !c.missing

/-- The crossing position that a cycle end corrects by, if it corrects (R11). -/
def correctionD (lock : LockState) (c : Cycle) : Option Int :=
  match lock with
  | .acquire => c.firstD
  | _ => if fourConditions c then c.firstD else none

/-- The band edges of f_est in mHz for a nominal frequency (R11). -/
def bandLow (fNom : Nat) : Nat := 950 * fNom

/-- The band edges of f_est in mHz for a nominal frequency (R11). -/
def bandHigh (fNom : Nat) : Nat := 1050 * fNom

/-- The frequency estimate by the step of R11, before the band is applied. -/
def steppedF (fEst : Nat) (d : Int) : Int := (fEst : Int) - Int.tdiv (fEst * d) 16384

/-- The frequency estimate after a correction by d, within nominal ±5% (R11). -/
def correctedF (fNom fEst : Nat) (d : Int) : Nat := clampNat (bandLow fNom) (bandHigh fNom) (steppedF fEst d).toNat

/-- The correction by d is clamped at the band (R11). -/
def correctionClamped (fNom fEst : Nat) (d : Int) : Bool := decide ((correctedF fNom fEst d : Int) ≠ steppedF fEst d)

/-- The cycle is good: the four conditions, and no clamped estimate (R10). -/
def cycleGood (s : State) : Bool :=
  fourConditions s.pru.cycle &&
    (match correctionD s.pru.lock s.pru.cycle with
      | some d => !correctionClamped s.settings.fNom s.pru.fEst d
      | none => true)

/-- The entry to ACQUIRE: reference-valid flag clear, both counts 0, f_est kept (R13). -/
def acquireEntry (p : Pru) : Pru := { p with lock := .acquire, goodCount := 0, holdoverCount := 0, ref.valid := false }

/-- The lock transitions of R12 on a good-cycle count already set. `apart` leaves the entry to ACQUIRE at the holdover
limit to the HOLDOVER_LIMIT step; the cycle end is then the last work on its arrival (log 5). -/
def lockTransition (apart good : Bool) (limit : Nat) (p : Pru) : Pru :=
  match p.lock with
  | .acquire => if 16 ≤ p.goodCount.toNat then { p with lock := .locked } else p
  | .locked => if good then p else { p with lock := .holdover, holdoverCount := 0 }
  | .holdover =>
    if 16 ≤ p.goodCount.toNat then { p with lock := .locked, holdoverCount := 0 }
    else if limit ≤ p.holdoverCount + 1 ∧ apart = false then acquireEntry p
    else { p with holdoverCount := p.holdoverCount + 1 }

/-- PRU's evaluation of the cycle just ended: correction, good-cycle count, lock transition (R10 to R12). A good cycle
that reaches the holdover limit is corrected as R11 says, and the entry to ACQUIRE follows: R8's last sentence names R13
beside R14 as the ends of cycles that are not evaluated, and the model's choice between them is R11 (log 38). -/
def evaluateCycle (apart : Bool) (s : State) : Pru :=
  let good := cycleGood s
  let d := correctionD s.pru.lock s.pru.cycle
  lockTransition apart good s.settings.holdoverLimit
    { s.pru with
      fEst := match d with | some d => correctedF s.settings.fNom s.pru.fEst d | none => s.pru.fEst
      dc := d.getD 0
      goodCount := if good then satInc s.pru.goodCount else 0 }

/-- The refresh conditions of R17 after the evaluation, outside an event. -/
def refreshes (p : Pru) : Bool :=
  p.lock == .locked && !p.cycle.unhealthy && !p.cycle.missing && !p.cycle.eventEnded

/-- The stored cycle at a cycle end outside an event: refreshed, or one cycle older (R16, R17). -/
def ageOrRefresh (sum128 : Phases Nat) (p : Pru) : Pru :=
  if refreshes p then
    { p with ref :=
        { samples := p.candidate, rms := sum128.map (fun n => isqrt (n / 128)), age := 0, valid := true } }
  else { p with ref.age := satInc p.ref.age }

/-- PRU's own work at a cycle end; while an event is active it is frozen (R12, R14, R17). -/
def cycleEndPru (apart : Bool) (s : State) : Pru :=
  if eventActive s then { s.pru with dc := 0, ref.age := satInc s.pru.ref.age }
  else ageOrRefresh s.sdu.sum128 (evaluateCycle apart s)

/-- A change of lock state is handed to RSQ (R15). -/
def handLock (before : LockState) (s : State) : State := if s.pru.lock = before then s else lockHanded s

/-- EVC counts the cycle end of an active event and compares the limit in force (R86). -/
def countCycle (apart : Bool) (s : State) : State :=
  if eventActive s then compareLimit apart { s with evc.cycles := satInc s.evc.cycles } else s

/-- RSQ counts the cycle end (R127). -/
def countCycleEnd (s : State) : State := { s with rsq.cycleCount := s.rsq.cycleCount + 1 }

/-- The cycle end of the outcome of index 127, at PRU, RSQ and EVC (R8, R10 to R17, R86, R127). -/
def cycleEnd (holdApart expiryApart : Bool) (s : State) : State :=
  countCycleEnd (countCycle expiryApart (handLock s.pru.lock { s with pru := cycleEndPru holdApart s }))

/-- The holdover count has reached the limit: the unit enters ACQUIRE and RSQ is handed the change (R12, R13). Frozen
during an event, it does nothing (R14). -/
def holdoverLimitReached (s : State) : State :=
  if s.pru.lock = .holdover ∧ s.settings.holdoverLimit ≤ s.pru.holdoverCount ∧ eventActive s = false then
    lockHanded { s with pru := acquireEntry s.pru }
  else s

end Sys2Proof.Machine
end

