-- ==== Sys2Proof/Machine/Detection.lean ====
section
/-! DEFINITION. What an arrival can do to the restorer: SDU's onset, re-sag, accumulation and recovery tests, and RSQ's
overcurrent run, close waits and SENSE fault (R26 to R30, R123 to R129). -/

namespace Sys2Proof.Machine

/-! SDU's tests. -/

/-- The arrival is an onset (R26). -/
def onsetHere (s : State) : Bool := s.rsq.state == .ready && s.sdu.flags.any && !s.sdu.prevFlags.any

/-- The arrival is a re-sag (R27). -/
def resagHere (s : State) : Bool := s.rsq.state == .release && (s.sdu.flags.minus s.sdu.prevFlags).any

/-- The open onset record takes the arrival's flags and residuals (R28). -/
def accumulate (s : State) : State :=
  if s.sdu.record.isOpen then
    { s with sdu.record := { s.sdu.record with
        sinceMask := s.sdu.record.sinceMask.join s.sdu.flags
        rMin := Phases.map2 min s.sdu.record.rMin s.sdu.residual } }
  else s

/-- All three residuals stand at or above the recover threshold (R30). -/
def recovered (s : State) : Bool :=
  (s.sdu.residual.map (fun r => decide (s.settings.recoverThreshold ≤ r))).all

/-- The recovery count at an arrival in INJECT; rising to the recover persistence it is a recovery (R30, R120). -/
def recoveryTest (s : State) : State :=
  if s.rsq.state = .inject then
    if recovered s then
      if s.sdu.recovery + 1 < s.settings.recoverPersistence then { s with sdu.recovery := s.sdu.recovery + 1 }
      else if s.sdu.recovery < s.settings.recoverPersistence then
        exitInject .recovered { s with sdu.recovery := s.sdu.recovery + 1 }
      else s
    else { s with sdu.recovery := 0 }
  else s

/-- SDU's tests on an arrival whose flags stand (R26 to R30). -/
def detect (k : CompletionTaking) (s : State) : State :=
  if onsetHere s then takeOnset k s
  else if resagHere s then takeResag (accumulate { s with sdu.recovery := 0 })
  else recoveryTest (accumulate s)

/-! Overcurrent. -/

/-- Some load current is greater than I_trip in magnitude (R126). -/
def overTrip (s : State) : Bool := (s.spt.lastGood.i.map (fun x => decide (s.settings.iTrip < x.natAbs))).any

/-- The overcurrent end list with one more entry, at most three (R127). -/
def addOverEnd (ends : List Word) (cycle : Word) : List Word :=
  if 4 ≤ (ends ++ [cycle]).length then (ends ++ [cycle]).drop 1 else ends ++ [cycle]

/-- The list calls for LOCKOUT (R127). -/
def callsLockout (ends : List Word) : Bool :=
  ends.length == 3 && decide ((ends.getLastD 0 - ends.headD 0).toNat ≤ 500)

/-- The state that an overcurrent end enters (R126, R127). -/
def overcurrentTarget (ends : List Word) (s : State) : RestorerState :=
  if callsLockout ends then .lockout else releaseTarget s

/-- The overcurrent run has reached 2: the event ends abruptly (R126, R127). -/
def overcurrentEnd (k : CompletionTaking) (s : State) : State :=
  let ends := addOverEnd s.rsq.overEnds s.rsq.cycleCount
  endEvent k .overcurrent (overcurrentTarget ends s)
    { s with rsq := { s.rsq with
        overRun := 2
        overEnds := ends
        overEndCount := satInc s.rsq.overEndCount } }

/-- RSQ's overcurrent run at an arrival in INJECT or RELEASE other than the onset arrival (R126). -/
def overcurrentTest (k : CompletionTaking) (s : State) : State :=
  if eventActive s && !s.rsq.onsetArrival then
    if overTrip s then
      if s.rsq.overRun = 0 then { s with rsq.overRun := 1 } else overcurrentEnd k s
    else { s with rsq.overRun := 0 }
  else s

/-! Close waits. -/

/-- Bypasses close and their waits end; the last one ends the event (R123, R124). -/
def closeBypasses (k : CompletionTaking) (closing : Phases Bool) (s : State) : State :=
  let left := s.rsq.bypassOpen.minus closing
  let s1 : State :=
    { s with rsq := { s.rsq with
        bypassOpen := left
        waits := Phases.map2 (fun c w => if c then none else w) closing s.rsq.waits } }
  if s.rsq.bypassOpen.any && !left.any then endEvent k s.rsq.endCause (releaseTarget s1) s1 else s1

/-- A phase's wait is over at an arrival: a sign change, or the count at 64 unless that is left to a step of its own
(R123; log 5). -/
def waitOver (apart : Bool) (before now : Int) (w : Option Nat) : Bool :=
  match w with
  | some n => decide (before * now ≤ 0) || (!apart && decide (64 ≤ n))
  | none => false

/-- RSQ's close waits at an arrival: each count increases, and phases whose wait is over close (R123). -/
def closeWaits (k : CompletionTaking) (apart : Bool) (before : Phases Int) (s : State) : State :=
  if s.rsq.state = .release then
    let waits := s.rsq.waits.map (fun w => w.map (fun n => n + 1))
    closeBypasses k (Phases.map3 (waitOver apart) before s.spt.lastGood.i waits) { s with rsq.waits := waits }
  else s

/-- The close wait of a phase has reached 64 arrivals (R123). -/
def timedOut (w : Option Nat) : Bool :=
  match w with
  | some n => decide (64 ≤ n)
  | none => false

/-- The waits among `phases` that have reached 64 arrivals end, whatever the current (R123). -/
def closeTimedOut (k : CompletionTaking) (phases : Phases Bool) (s : State) : State :=
  if s.rsq.state = .release then closeBypasses k (phases.meet (s.rsq.waits.map timedOut)) s else s

/-- A duration expiry that was found and left is handed to RSQ (R86, R119; log 5). -/
def expireDuration (s : State) : State :=
  if s.evc.expiryDue then exitInject .duration { s with evc.expiryDue := false } else s

end Sys2Proof.Machine
end

