-- ==== Sys2Proof/Machine/Reset.lean ====
section
/-! DEFINITION. The soft reset: its conditions, the values every block takes, and the start that follows a reset
(R7, R57, R132, R134, R153, R167, R168, R176 to R178). -/

namespace Sys2Proof.Machine

/-- The straps are read and the load starts (R167, R168, R176). -/
def readStraps (straps : BitVec 4) (s : State) : State :=
  { s with cfl := { s.cfl with
      strap := straps
      strapsRead := true
      badStrap := decide (12 ≤ straps.toNat)
      source := .loading
      loading := true } }

/-- After a reset: the straps, the load, and the first strobe with index 0 (R7, R168). -/
def startUp (straps : BitVec 4) (s : State) : State := beginRun s.now (readStraps straps s)

/-- A capture is in its post tail (R132, R142). -/
def inTail (c : Cst) : Bool :=
  match c.filling with
  | some f => f.tail.isSome
  | none => false

/-- The conditions of the soft reset (R132). -/
def softResetReady (s : State) : Bool :=
  s.rsq.quiesce && !eventActive s && !inTail s.cst && (s.slc.membership != .member || s.rsq.sentSince)

/-- Every block takes its soft-reset values (R178): kept are the frame number, the event number counter and the
store (R57, R134, R153). -/
def softResetState (s : State) : State :=
  { State.reset with
    pins := s.pins
    now := s.now
    pending := s.pending
    slc := { Slc.initial with frameNumber := s.slc.frameNumber }
    rsq := { Rsq.initial with eventCounter := s.rsq.eventCounter }
    cst := captureSoftReset s }

/-- The soft reset is handed to every block, and CFL reads the straps and starts the load (R132, R177, R178). -/
def carryOutReset (straps : BitVec 4) (s : State) : State := startUp straps (softResetState s)

end Sys2Proof.Machine
end

