-- ==== Sys2Proof/Machine/Sampling.lean ====
section
/-! DEFINITION. The sample path: the outcome of a strobe at every per-set block, and the commands STROBE,
SAMPLE_SET_ARRIVAL, ARRIVAL_DEADLINE and HOLDOVER_LIMIT (R1 to R8, R13). -/

namespace Sys2Proof.Machine

/-! One arrival. -/

/-- The order in which the parts of an arrival are taken when the operand names none. -/
def arrivalParts : List ArrivalPart :=
  [.sense, .detect, .cycleEnd, .inject, .service, .linkRun, .overcurrent, .closeWaits, .completion]

/-- The parts named first, in their order, then the rest (log 4). -/
def takingOrder {α : Type} [DecidableEq α] (named all : List α) : List α :=
  named.eraseDups ++ all.filter (fun p => !named.contains p)

/-- What one arrival carries to its parts: its index, the currents of the arrival before, and whether its missing set
raised the run from 3 to 4 (R5, R123). -/
structure Arrival where
  index : Nat
  before : Phases Int
  sense : Bool
  deriving DecidableEq, Repr

/-- One part of the work on an arrival. -/
def arrivalPart (k : ArrivalTaking) (a : Arrival) (p : ArrivalPart) (s : State) : State :=
  match p with
  | .sense => if a.sense then faultTaken k.completion .sense s else s
  | .detect => detect k.completion s
  | .cycleEnd =>
    if a.index = 127 then cycleEnd (k.apart.contains .holdoverLimit) (k.apart.contains .durationExpiry) s else s
  | .inject => injectSet a.index s.spt.lastGood s
  | .service => serviceTest s
  | .linkRun => linkRunTest s
  | .overcurrent => overcurrentTest k.completion s
  | .closeWaits => closeWaits k.completion (k.apart.contains .closeWaitTimeout) a.before s
  | .completion => if k.completion = .apart then s else completeDue s

/-- The order of an arrival's parts. With the holdover limit left to HOLDOVER_LIMIT the cycle end comes last, so that
nothing on the arrival is taken between the cycle end and the entry to ACQUIRE that belongs to it (R12, R113;
log 5). -/
def arrivalOrder (k : ArrivalTaking) : List ArrivalPart :=
  let order := takingOrder k.order arrivalParts
  if k.apart.contains .holdoverLimit then order.filter (fun p => p != .cycleEnd) ++ [.cycleEnd] else order

/-- Timed steps that were due and left to commands of their own are taken before the next arrival (log 5). -/
def settleDue (s : State) : State :=
  completeDue (expireDuration (closeTimedOut .afterNo (Phases.same true) (holdoverLimitReached s)))

/-- SPT's judgement: a good set replaces the last good set and ends the missing run; a missing set raises both counts
(R3, R4). No strobe is outstanding. -/
def judge (good : Option SampleSet) (p : Spt) : Spt :=
  match good with
  | some set => { p with lastGood := set, missRun := 0, outstanding := none }
  | none => { p with faultCount := satInc p.faultCount, missRun := satInc p.missRun, outstanding := none }

/-- The work on an arrival that comes before its parts: SPT's judgement, SDU's measurement, PRU's notes, CST's set, the
beginning of close waits (R3, R4, R9, R16, R20 to R25, R122, R137, R141; log 6). -/
def takeSet (k : Nat) (good : Option SampleSet) (s : State) : State :=
  let s1 : State := { s with spt := judge good s.spt, rsq.onsetArrival := false }
  let set := s1.spt.lastGood
  beginWaits (captureSet set (noteSet k set.v good.isNone (measureSet k set.v s1)))

/-- The straps of a pending soft reset that is carried out at this moment of an arrival: the operand says so and the
conditions hold (R132; log 26). -/
def resetWithin (k : ArrivalTaking) (s : State) : Option (BitVec 4) := if softResetReady s then k.softReset else none

/-- The parts of an arrival in an order. A soft reset carried out within the arrival comes at the first moment between
parts at which its conditions hold, and abandons the arrival where it stands (R7, R132). -/
def takeParts (k : ArrivalTaking) (a : Arrival) : List ArrivalPart → State → State
  | [], s =>
    match resetWithin k s with
    | some straps => carryOutReset straps s
    | none => s
  | p :: ps, s =>
    match resetWithin k s with
    | some straps => carryOutReset straps s
    | none => takeParts k a ps (arrivalPart k a p s)

/-- The outcome of the strobe of index k: a good set, or a missing one (R3 to R6); a soft reset can end it (R7, R132). -/
def arrive (k : ArrivalTaking) (index : Nat) (good : Option SampleSet) (s : State) : State :=
  let s0 := settleDue s
  let a : Arrival :=
    { index := index, before := s0.spt.lastGood.i, sense := good.isNone && s0.spt.missRun == 3 }
  takeParts k a (arrivalOrder k) (takeSet index good s0)

/-- The deadline of the outstanding strobe passes: the strobe is missing (R3). -/
def deadlinePasses (k : ArrivalTaking) (s : State) : State :=
  match s.spt.outstanding with
  | some o => arrive k o.index none (s.moveTo o.deadline)
  | none => s

/-! The commands. -/

/-- STROBE: the next strobe time arrives and SPT raises the strobe (R1, R8). An outcome that the outstanding strobe
still lacks falls before it and is taken first (R3; log 33). Before the first strobe there is no run and nothing
happens (R7). -/
def strobeTime (s : State) : State :=
  match s.pru.run with
  | some r =>
    if s.pru.index = 0 then beginRun (r.strobeAt 128) (s.moveTo (r.strobeAt 128))
    else raiseStrobe r (r.strobeAt s.pru.index) (s.moveTo (r.strobeAt s.pru.index))
  | none => s

/-- The meaning of STROBE. -/
def execStrobe (s : State) : Host.Outcome State Fault Refusal := .next (strobeTime (deadlinePasses {} s))

/-- A set arrives at an instant (R1 to R6). Without an outstanding strobe it is discarded (R3). At or after the
deadline the strobe is missing at its deadline, and the set is discarded (R3; log 33). -/
def setArrives (t : Nat) (set : RawSet) (k : ArrivalTaking) (s : State) : State :=
  match s.spt.outstanding with
  | some o =>
    if o.deadline ≤ max s.now t then (deadlinePasses k s).moveTo t
    else arrive k o.index (if parityGood set then some (saturatedSet set) else none) (s.moveTo t)
  | none => s.moveTo t

/-- The meaning of SAMPLE_SET_ARRIVAL. -/
def execSampleSetArrival (t : Nat) (set : RawSet) (k : ArrivalTaking) (s : State) :
    Host.Outcome State Fault Refusal := .next (setArrives t set k s)

/-- The meaning of ARRIVAL_DEADLINE (R3). -/
def execArrivalDeadline (k : ArrivalTaking) (s : State) : Host.Outcome State Fault Refusal :=
  .next (deadlinePasses k s)

/-- The meaning of HOLDOVER_LIMIT (R12, R13). -/
def execHoldoverLimit (s : State) : Host.Outcome State Fault Refusal := .next (holdoverLimitReached s)

end Sys2Proof.Machine
end

