-- ==== Sys2Proof/Machine/Restorer.lean ====
section
/-! DEFINITION. The commands of the plant-side inputs and of the restorer's own timers: ENABLE, the fault inputs,
CLOSE_WAIT_TIMEOUT, DURATION_EXPIRY and CAPTURE_COMPLETION (R86, R110, R112, R121, R123, R128, R131, R143). -/

namespace Sys2Proof.Machine

/-- The meaning of ENABLE_ASSERTED: the input stands asserted, and OFF is left if the settings are in force with valid
straps (R110). -/
def execEnableAsserted (t : Nat) (s : State) : Host.Outcome State Fault Refusal :=
  .next (leaveOff { s.moveTo t with pins.enable := true })

/-- What the deassertion of ENABLE does in each state (R112, R121). -/
def disable (s : State) : State :=
  match s.rsq.state with
  | .charge => { s with rsq.state := .off }
  | .ready => { s with rsq.state := .off }
  | .inject => exitInject .disabled s
  | _ => s

/-- The meaning of ENABLE_DEASSERTED (R112, R121). -/
def execEnableDeasserted (t : Nat) (s : State) : Host.Outcome State Fault Refusal :=
  .next (disable { s.moveTo t with pins.enable := false })

/-- The inputs with one fault input set to a level. -/
def Pins.setFault (f : FaultInput) (level : Bool) (p : Pins) : Pins :=
  match f with
  | .desat ph => { p with desat := p.desat.set ph level }
  | .overtemp => { p with overtemp := level }

/-- A fault input becomes active; while another is active already, nothing but the input changes (R128). -/
def assertFault (f : FaultInput) (k : CompletionTaking) (s : State) : State :=
  let s1 : State := { s with pins := s.pins.setFault f true }
  if faultActive s then s1 else faultTaken k .fault s1

/-- The meaning of FAULT_INPUT_ACTIVE (R128). -/
def execFaultInputActive (t : Nat) (f : FaultInput) (k : CompletionTaking) (s : State) :
    Host.Outcome State Fault Refusal := .next (assertFault f k (s.moveTo t))

/-- The meaning of FAULT_INPUT_CLEARED: the input ceases to be active; LOCKOUT is left by CLEAR_LOCKOUT alone
(R130, R131). -/
def execFaultInputCleared (t : Nat) (f : FaultInput) (s : State) : Host.Outcome State Fault Refusal :=
  .next { s.moveTo t with pins := s.pins.setFault f false }

/-- The mask of one phase. -/
def phaseMask (p : Phase) : Phases Bool := (Phases.same false).set p true

/-- The meaning of CLOSE_WAIT_TIMEOUT: the phase's wait of 64 arrivals ends (R123). -/
def execCloseWaitTimeout (p : Phase) (k : CompletionTaking) (s : State) : Host.Outcome State Fault Refusal :=
  .next (closeTimedOut k (phaseMask p) s)

/-- The meaning of DURATION_EXPIRY (R86, R119). -/
def execDurationExpiry (s : State) : Host.Outcome State Fault Refusal := .next (expireDuration s)

/-- The meaning of CAPTURE_COMPLETION (R142, R143). -/
def execCaptureCompletion (s : State) : Host.Outcome State Fault Refusal := .next (completeDue s)

end Sys2Proof.Machine
end

