-- ==== Sys2Proof/Machine/Sharing.lean ====
section
/-! DEFINITION. ESA: the budget, the effective demands, the allocation walk and the grant ratio (R58 to R67). -/

namespace Sys2Proof.Machine

/-- The budget curve B in kW at a bus voltage (R58). -/
def budgetOf (c : Config.Settings) (vb : Nat) : Nat :=
  if c.vKnee ≤ vb then c.pMax
  else if c.vFloor < vb then c.pMax * (vb - c.vFloor) / (c.vKnee - c.vFloor)
  else 0

/-- The zero-budget count after a frame end with budget B (R59). -/
def zeroCountAfter (b : Nat) (n : BitVec 8) : BitVec 8 := if b = 0 then satInc n else 0

/-- One counted entry of the allocation: its class and effective demand (R60). -/
structure Term where
  own : Bool
  cls : Nat
  demand : Nat
  deriving DecidableEq, Repr

/-- A restorer state field announces INJECT or RELEASE (R61, R180). -/
def announcesEvent (code : BitVec 3) : Bool := code == 3 || code == 4

/-- The term of an entry other than the own one, if it is counted (R60, R61, R62). -/
def peerTerm (e : PeerEntry) : Option Term :=
  if e.state = .absent then none
  else match e.slow with
    | none => some { own := false, cls := 0, demand := e.fast.demand.toNat }
    | some w =>
      if w.kind = 0 then
        some
          { own := false
            cls := w.cls.toNat
            demand :=
              if e.foreign && announcesEvent e.fast.restorer then w.rating.toNat else e.fast.demand.toNat }
      else none

/-- The own term (R63). -/
def ownTerm (s : State) : Term where
  own := true
  cls := (announcedClass s).toNat
  demand := s.inc.demand

/-- The term of slot j (R60, R63). -/
def slotTerm (s : State) (j : Nat) : Option Term :=
  if ownSlot s = some j then some (ownTerm s) else peerTerm (s.slc.peers.getD j PeerEntry.absent)

/-- The counted entries, in slot order (R60). -/
def terms (s : State) : List Term := (List.range 12).filterMap (slotTerm s)

/-- T_c: the effective demands of one class summed (R64). -/
def classTotal (ts : List Term) (c : Nat) : Nat :=
  ((ts.filter (fun x => x.cls == c)).map Term.demand).sum

/-- R before class c: what the classes before it have left of B (R64). -/
def remaining (ts : List Term) (b : Nat) : Nat → Nat
  | 0 => b
  | c + 1 => if classTotal ts c ≤ remaining ts b c then remaining ts b c - classTotal ts c else 0

/-- The grant of one entry (R64). -/
def grantOf (ts : List Term) (b : Nat) (x : Term) : Nat :=
  if classTotal ts x.cls ≤ remaining ts b x.cls then x.demand
  else x.demand * remaining ts b x.cls / classTotal ts x.cls

/-- G_own: the own term's grant, 0 when there is none (R63, R66). -/
def ownGrant (ts : List Term) (b : Nat) : Nat :=
  match ts.find? Term.own with
  | some x => grantOf ts b x
  | none => 0

/-- The grant ratio g (R66); without an own term it is 32768 (R63). -/
def grantRatio (ts : List Term) (b : Nat) : Nat :=
  match ts.find? Term.own with
  | some x => if x.demand = 0 then Config.one else Config.one * grantOf ts b x / x.demand
  | none => Config.one

/-- ESA's work at a frame end (R58 to R66). The shared bus voltage is that of the last good set; before the first good
set after a reset it reads 0 from the initial values (R6, R7), so the budget is 0: the model's choice (log 39). -/
def allocation (s : State) : Esa :=
  let b := budgetOf s.settings s.spt.lastGood.bus
  { budget := b
    zeroCount := zeroCountAfter b s.esa.zeroCount
    grant := ownGrant (terms s) b
    ratio := grantRatio (terms s) b }

/-- ESA allocates and hands INC the new ratio (R67). -/
def allocate (s : State) : State := handRatio (allocation s).ratio { s with esa := allocation s }

end Sys2Proof.Machine
end

