-- ==== Sys2Proof/Machine/Requests.lean ====
section
/-! DEFINITION. RQH: following the request fields, which request is executable, and the eight request commands
(R131, R132, R147, R148, R154 to R165). -/

namespace Sys2Proof.Machine

/-! Following. -/

/-- What RQH keeps for a slot after taking a request field from it (R156). -/
def Follow.heard (f : BitVec 48) (x : Follow) : Follow where
  previous := some f
  confirmed := x.previous == some f
  baseline := if x.baselinePending || x.baseline == some f then some f else none
  baselinePending := false
  lastTag := x.lastTag

/-- What RQH keeps for a slot that is ABSENT at a frame end (R156). -/
def Follow.dropped (x : Follow) : Follow := { x with previous := none, confirmed := false }

/-- The peer-table entry of a slot (R50). -/
def peerEntry (s : State) (j : Nat) : PeerEntry := s.slc.peers.getD j PeerEntry.absent

/-- The following of one slot at a frame end (R156). -/
def followSlot (s : State) (j : Nat) (x : Follow) : Follow :=
  if ownSlot s = some j then x
  else match (peerEntry s j).state with
    | .live => x.heard (peerEntry s j).fast.request
    | .held => x
    | .absent => x.dropped

/-- RQH follows every slot at a frame end, and the frame end's one execution is open (R156, R158). -/
def follow (s : State) : State :=
  { s with rqh := { s.rqh with slots := s.rqh.slots.mapIdx (followSlot s), execOpen := true } }

/-! Which request is executed. -/

/-- What RQH keeps for a slot. -/
def followOf (s : State) (j : Nat) : Follow := s.rqh.slots.getD j Follow.initial

/-- The slot's entry is known as a gateway (R157). -/
def knownGateway (s : State) (j : Nat) : Bool :=
  match (peerEntry s j).slow with
  | some w => w.kind == 1
  | none => false

/-- The request field of a slot, when it is executable (R157). -/
def executable (s : State) (j : Nat) : Option (BitVec 48) :=
  match (followOf s j).previous with
  | some f =>
    if ownSlot s = some (requestTarget f) ∧ knownGateway s j = true ∧ (followOf s j).confirmed = true ∧
        (followOf s j).baseline = none ∧ (followOf s j).baselinePending = false ∧ requestCode f ≠ 0 ∧
        (followOf s j).lastTag ≠ some (requestTag f)
    then some f else none
  | none => none

/-- The request that RQH executes next: the executable one of the lowest slot, while the frame end's one execution is
open (R158). -/
def standing (s : State) : Option (Nat × BitVec 48) :=
  if s.rqh.execOpen then (List.range 12).findSome? (fun j => (executable s j).map (fun f => (j, f))) else none

/-- The standing request is that of slot g with this tag and code, and with this argument where one is given
(R154, R158; log 9). -/
def stands (g : Nat) (tag code : BitVec 4) (arg : Option Word) (s : State) : Bool :=
  match standing s with
  | some (j, f) =>
    j == g && requestTag f == tag && requestCode f == code &&
      (match arg with | some a => requestArg f == a | none => true)
  | none => false

/-- The reply is written and the slot's last executed tag set; the frame end's execution is used (R158). -/
def answer (g : Nat) (tag : BitVec 4) (status : Status) (data : Word) (s : State) : State :=
  { s with rqh :=
      { reply := { requester := BitVec.ofNat 8 g, tag := tag, status := status, data := data }
        slots := s.rqh.slots.modify g (fun x => { x with lastTag := some tag })
        execOpen := false } }

/-! READ_ITEM. -/

/-- The configuration status word (R176, R182). -/
def configStatus (c : Cfl) : Word :=
  c.source.code ++ c.reason.code ++ BitVec.ofBool c.badStrap ++ BitVec.ofBool c.clamped ++
    BitVec.ofBool c.layoutHeld ++ 0#1 ++ BitVec.ofNat 4 c.entriesInForce ++ c.strap ++ 0#4 ++ c.voidMask

/-- The data word of an item, or none for an item number out of range (R159). -/
def itemWord (s : State) (item : Word) : Option Word :=
  match item.toNat with
  | 0 => some (s.slc.lineErrors.setWidth 32)
  | 1 => some (s.cst.missed.setWidth 32)
  | 2 => some (configStatus s.cfl)
  | 3 => some s.rsq.eventCounter
  | 4 => some (BitVec.ofNat 32 s.pru.fEst)
  | 5 => some (s.pru.lock.code.setWidth 16 ++ s.pru.goodCount)
  | 6 => some (s.rsq.overEndCount.setWidth 32)
  | 7 => some (s.spt.faultCount.setWidth 32)
  | 8 => some (s.rsq.lastEndCause.code.setWidth 32)
  | 9 => some (BitVec.ofNat 16 s.cst.full ++ BitVec.ofNat 16 s.cst.oldest)
  | 10 => some (s.slc.membership.code ++ BitVec.ofBool s.slc.duplicate ++ 0#5 ++ s.slc.collisionCount ++
      s.slc.misalignCount)
  | _ => none

/-- The execution of READ_ITEM (R159). -/
def readItem (g : Nat) (tag : BitVec 4) (item : Word) (s : State) : State :=
  match itemWord s item with
  | some d => answer g tag .ok d s
  | none => answer g tag .badArg 0 s

/-! READ_RECORD. -/

/-- Status and data of READ_RECORD, by the checks in their order (R160). -/
def recordReply (c : Cst) (slot word : Nat) : Status × Word :=
  match c.layout with
  | none => (.refused, 0)
  | some l =>
    if l.slots ≤ slot then (.badArg, 0)
    else if 15 + 3 * l.sets < word then (.badArg, 0)
    else if slotState c l slot = .free then (.refused, 0)
    else (.ok, recordWord c l slot word)

/-- The execution of READ_RECORD (R160). -/
def readRecord (g : Nat) (tag : BitVec 4) (slot word : Half) (s : State) : State :=
  answer g tag (recordReply s.cst slot.toNat word.toNat).1 (recordReply s.cst slot.toNat word.toNat).2 s

/-! READ_PEER. -/

/-- A flag in the low bit of a data word (R161). -/
def flagWord (b : Bool) : Word := (BitVec.ofBool b).setWidth 32

/-- A phase mask in the low bits of a data word (R161). -/
def maskWord (m : Phases Bool) : Word := m.bits.setWidth 32

/-- A slow field of an entry, 0 while the slow fields are unknown (R161). -/
def slowWord {w : Nat} (e : PeerEntry) (field : Slow → BitVec w) : Word :=
  match e.slow with
  | some x => (field x).setWidth 32
  | none => 0

/-- The data word of a field of an entry, or none for a field number out of range (R161). -/
def peerWord (e : PeerEntry) (field : Nat) : Option Word :=
  match field with
  | 0 => some (e.state.code.setWidth 32)
  | 1 => some (BitVec.ofNat 32 e.missed)
  | 2 => some (flagWord e.slow.isSome)
  | 3 => some (flagWord e.foreign)
  | 4 => some (slowWord e Slow.kind)
  | 5 => some (slowWord e Slow.cls)
  | 6 => some (slowWord e Slow.rating)
  | 7 => some (slowWord e Slow.digest)
  | 8 => some (slowWord e (fun x => BitVec.ofBool x.defaultsFlag))
  | 9 => some e.frameNumber
  | 10 => some (e.fast.restorer.setWidth 32)
  | 11 => some (e.fast.lock.setWidth 32)
  | 12 => some (flagWord e.fast.active)
  | 13 => some (maskWord e.fast.sagNow)
  | 14 => some (maskWord e.sagPrev)
  | 15 => some (e.fast.demand.setWidth 32)
  | 16 => some (e.fast.grant.setWidth 32)
  | 17 => some (e.fast.bus.setWidth 32)
  | 18 => some (e.fast.link.setWidth 32)
  | 19 => some (e.fast.eventLow.setWidth 32)
  | 20 => some (e.fast.full.setWidth 32)
  | 21 => some (e.fast.rMinPercent.setWidth 32)
  | 22 => some (e.fast.eventClass.setWidth 32)
  | 23 => some (flagWord e.fast.resag)
  | 24 => some (flagWord e.fast.quiesce)
  | 25 => some (flagWord e.fast.mute)
  | 26 => some ((e.fast.request.extractLsb' 32 16).setWidth 32)
  | 27 => some (e.fast.request.extractLsb' 0 32)
  | _ => none

/-- Status and data of READ_PEER (R161). -/
def peerReply (s : State) (slot field : Nat) : Status × Word :=
  if 12 ≤ slot then (.badArg, 0)
  else match peerWord (peerEntry s slot) field with
    | some d => (.ok, d)
    | none => (.badArg, 0)

/-- The execution of READ_PEER (R161). -/
def readPeer (g : Nat) (tag : BitVec 4) (slot field : Half) (s : State) : State :=
  answer g tag (peerReply s slot.toNat field.toNat).1 (peerReply s slot.toNat field.toNat).2 s

/-! FREE_RECORDS. -/

/-- The oldest pointer advanced by a number of slots, with wrap (R136). -/
def advance (layout : Option Layout) (oldest n : Nat) : Nat :=
  match layout with
  | some l => (oldest + n) % l.slots
  | none => oldest

/-- The FULL slots from the oldest pointer become FREE, at most n of them (R147). -/
def freeSlots (n : Nat) (c : Cst) : Cst :=
  { c with oldest := advance c.layout c.oldest (min n c.full), full := c.full - min n c.full }

/-- The execution of FREE_RECORDS (R147, R162). -/
def freeRecords (g : Nat) (tag : BitVec 4) (n : Word) (s : State) : State :=
  if n = 0 then answer g tag .badArg 0 s
  else if n.toNat ≤ s.cst.full then answer g tag .ok n { s with cst := freeSlots n.toNat s.cst }
  else answer g tag .freeTooMany (BitVec.ofNat 32 s.cst.full) { s with cst := freeSlots n.toNat s.cst }

/-! CLEAR_LOCKOUT. -/

/-- The effect of CLEAR_LOCKOUT on a restorer in LOCKOUT with no fault input active (R127, R131). -/
def leaveLockout (s : State) : State :=
  { s with rsq := { s.rsq with
      overEnds := []
      state := if s.pins.enable then .charge else .off } }

/-- The execution of CLEAR_LOCKOUT; the data word is the state code after it (R131, R163). -/
def clearLockout (g : Nat) (tag : BitVec 4) (s : State) : State :=
  if s.rsq.state = .lockout then
    if faultActive s then answer g tag .refused (s.rsq.state.code.setWidth 32) s
    else answer g tag .ok ((leaveLockout s).rsq.state.code.setWidth 32) (leaveLockout s)
  else answer g tag .ok (s.rsq.state.code.setWidth 32) s

/-! TEST_CAPTURE. -/

/-- A test capture opens in the fill slot, or is counted missed when that slot is FULL (R148, R150). -/
def openTest (l : Layout) (number : Word) (s : State) : Cst :=
  if ringFull s.cst l then missCapture s.cst
  else openSlot l
    { onset := { onsetFields s with event := number }, duration := 0, ended := none, classed := none }
    none false true s.cst

/-- The execution of TEST_CAPTURE; the data word is the number given to the test (R115, R148, R163). -/
def testCapture (g : Nat) (tag : BitVec 4) (s : State) : State :=
  match s.cst.layout with
  | none => answer g tag .refused 0 s
  | some l =>
    if eventActive s || s.cst.filling.isSome then answer g tag .refused 0 s
    else
      let number := nextEvent s.rsq.eventCounter
      answer g tag .ok number { s with rsq.eventCounter := number, cst := openTest l number s }

/-! SOFT_RESET and the codes of no request. -/

/-- The quiesce-pending flag is set; the own blocks sent from now on count (R132). -/
def setQuiesce (s : State) : State :=
  if s.rsq.quiesce then s else { s with rsq := { s.rsq with quiesce := true, sentSince := false } }

/-- The execution of SOFT_RESET (R164). -/
def softReset (g : Nat) (tag : BitVec 4) (s : State) : State := answer g tag .ok 0 (setQuiesce s)

/-- The execution of a request with code 8..15 (R158). -/
def badCode (g : Nat) (tag : BitVec 4) (s : State) : State := answer g tag .badCode 0 s

/-- The standing request, if there is one, is executed (R158). -/
def executeStanding (s : State) : State :=
  match standing s with
  | none => s
  | some (g, f) =>
    let tag := requestTag f
    let arg := requestArg f
    match (requestCode f).toNat with
    | 1 => readItem g tag arg s
    | 2 => readRecord g tag (arg.extractLsb' 16 16) (arg.extractLsb' 0 16) s
    | 3 => readPeer g tag (arg.extractLsb' 16 16) (arg.extractLsb' 0 16) s
    | 4 => freeRecords g tag arg s
    | 5 => clearLockout g tag s
    | 6 => testCapture g tag s
    | 7 => softReset g tag s
    | _ => badCode g tag s

/-! The commands: each executes when it is the standing request, and finds nothing to do otherwise (log 9). -/

/-- The meaning of READ_ITEM (R159). -/
def execReadItem (g : Nat) (tag : BitVec 4) (item : Word) (s : State) : Host.Outcome State Fault Refusal :=
  .next (if stands g tag 1 (some item) s then readItem g tag item s else s)

/-- The meaning of READ_RECORD (R160). -/
def execReadRecord (g : Nat) (tag : BitVec 4) (slot word : Half) (s : State) : Host.Outcome State Fault Refusal :=
  .next (if stands g tag 2 (some (slot ++ word)) s then readRecord g tag slot word s else s)

/-- The meaning of READ_PEER (R161). -/
def execReadPeer (g : Nat) (tag : BitVec 4) (slot field : Half) (s : State) : Host.Outcome State Fault Refusal :=
  .next (if stands g tag 3 (some (slot ++ field)) s then readPeer g tag slot field s else s)

/-- The meaning of FREE_RECORDS (R147). -/
def execFreeRecords (g : Nat) (tag : BitVec 4) (n : Word) (s : State) : Host.Outcome State Fault Refusal :=
  .next (if stands g tag 4 (some n) s then freeRecords g tag n s else s)

/-- The meaning of CLEAR_LOCKOUT (R131). -/
def execClearLockout (g : Nat) (tag : BitVec 4) (s : State) : Host.Outcome State Fault Refusal :=
  .next (if stands g tag 5 none s then clearLockout g tag s else s)

/-- The meaning of TEST_CAPTURE (R148). -/
def execTestCapture (g : Nat) (tag : BitVec 4) (s : State) : Host.Outcome State Fault Refusal :=
  .next (if stands g tag 6 none s then testCapture g tag s else s)

/-- The meaning of SOFT_RESET (R164). -/
def execSoftReset (g : Nat) (tag : BitVec 4) (s : State) : Host.Outcome State Fault Refusal :=
  .next (if stands g tag 7 none s then softReset g tag s else s)

/-- The meaning of BAD_CODE_REQUEST (R158). -/
def execBadCodeRequest (g : Nat) (tag code : BitVec 4) (s : State) : Host.Outcome State Fault Refusal :=
  .next (if 8 ≤ code.toNat ∧ stands g tag code none s = true then badCode g tag s else s)

end Sys2Proof.Machine
end

