-- ==== Sys2Proof/Machine/ShareLine.lean ====
section
/-! DEFINITION. SLC: block starts, reception and sorting, the peer table, starting alone, slot starts and the frame end
(R34 to R56), with the frame-end work of the other blocks. -/

namespace Sys2Proof.Machine

/-! Timing. -/

/-- The grid laid from a block's start instant and slot number, at the grid point at or before an instant
(R46, R47). -/
def gridAt (start slot instant : Nat) (taken : Bool) (last : Option Nat) : Timing :=
  let n := (instant - start) / Config.slotLength
  { slot := (slot + n) % 12
    nominal := start + n * Config.slotLength
    next := start + (n + 1) * Config.slotLength
    taken := taken
    lastFrameEnd := last
    gridStart := start }

/-- The last frame end since the station became timed. -/
def lastFrameEnd (t : Option Timing) : Option Nat := t.bind Timing.lastFrameEnd

/-- The station is timed or retimed to a block that began at `start` in slot `slot` (R40, R46; log 17, 28). -/
def retime (start slot : Nat) (s : State) : State :=
  { s with slc.timing := some (gridAt start slot s.now true (lastFrameEnd s.slc.timing)) }

/-! Block starts. -/

/-- The line is active with a reception or an own transmission that has not run its 25.6 microseconds (R34). -/
def lineActive (t : Nat) (p : Slc) : Bool :=
  (match p.rx with | some r => decide (t < r.start + Config.blockLength) | none => false) ||
    (match p.tx with | some x => decide (t < x.start + Config.blockLength) | none => false)

/-- A block that begins at t is the block of the current slot (R35; log 14). -/
def inWindow (t : Nat) (g : Timing) : Bool :=
  !g.taken && decide (g.nominal ≤ t) && decide (t ≤ g.nominal + Config.windowLength)

/-- SLC at a block's start: the slot's block sets the start of the next slot; any other is a stray block (R35). A block
that begins at the very instant of the next slot's nominal start is sorted by which is taken first: before SLOT_START it
falls to the slot that ends, and is a stray block; R35 gives no order there (log 35). -/
def blockBegins (t : Nat) (p : Slc) : Slc :=
  match p.timing with
  | some g =>
    if inWindow t g then
      { p with
        timing := some { g with taken := true, next := t + Config.slotLength }
        rx := some { start := t, inSlot := some g.slot } }
    else { p with rx := some { start := t, inSlot := none } }
  | none => { p with rx := some { start := t, inSlot := none } }

/-- The meaning of BLOCK_START: the line goes from idle to active (R34, R35). While RESET is held nothing is received
(R57); on a line already active no block begins (R35). -/
def execBlockStart (t : Nat) (s : State) : Host.Outcome State Fault Refusal :=
  let s1 := s.moveTo t
  .next (if s.pins.resetHeld || lineActive s1.now s.slc then s1 else { s1 with slc := blockBegins s1.now s.slc })

/-! The peer table. -/

/-- The foreign flag (R53). -/
def foreignTo (digest : Half) (slow : Option Slow) : Bool :=
  match slow with
  | some w => w.digest != digest
  | none => false

/-- The accepted slow fields after a block: the block's when they repeat the candidate (R52). -/
def acceptSlow (w : Slow) (e : PeerEntry) : Option Slow := if e.candidate = some w then some w else e.slow

/-- A block is taken into an entry (R51, R52, R53). -/
def PeerEntry.take (digest : Half) (b : Block) (e : PeerEntry) : PeerEntry where
  state := .live
  missed := 0
  heard := true
  slow := acceptSlow b.slow e
  candidate := some b.slow
  foreign := foreignTo digest (acceptSlow b.slow e)
  frameNumber := b.frameNumber
  fast := b.fast
  sagPrev := e.fast.sagNow

/-- A block is taken into the entry of its slot (R51). -/
def takeEntry (b : Block) (s : State) : State :=
  { s with slc.peers := s.slc.peers.modify b.slot.toNat (PeerEntry.take s.cfl.digest b) }

/-- The aging of an entry at a frame end (R54). -/
def PeerEntry.age (e : PeerEntry) : PeerEntry :=
  if e.heard then { e with heard := false }
  else match e.state with
    | .live => { e with state := .held, missed := 1 }
    | .held => if e.missed + 1 ≤ 4 then { e with missed := e.missed + 1 } else PeerEntry.absent
    | .absent => PeerEntry.absent

/-- The peer table ages, the own entry excepted (R54). -/
def agePeers (own : Option Nat) (peers : List PeerEntry) : List PeerEntry :=
  peers.mapIdx (fun j e => if own = some j then e else e.age)

/-- The own entry filled from the station's own values (R50; log 16). -/
def ownEntry (s : State) (old : PeerEntry) : PeerEntry where
  state := .live
  missed := 0
  heard := false
  slow := some (ownSlow s)
  candidate := none
  foreign := false
  frameNumber := s.slc.frameNumber
  fast := ownFast s
  sagPrev := old.fast.sagNow

/-- The own entry is filled, with valid straps (R50). -/
def fillOwn (s : State) : State :=
  match ownSlot s with
  | some j => { s with slc.peers := s.slc.peers.modify j (ownEntry s) }
  | none => s

/-! Reception. -/

/-- The line error count, modulo 65536 (R37). -/
def countLineError (s : State) : State := { s with slc.lineErrors := s.slc.lineErrors + 1 }

/-- The read-back of the own transmission (R37, R44); its end lets a pending soft reset see a block sent (R132). -/
def takeReadback (bytes : List Byte) (s : State) : State :=
  match s.slc.tx with
  | some x =>
    { s with
      slc := { s.slc with
        tx := none
        collisionMark := s.slc.collisionMark ||
          (s.slc.membership == .member && (!blockValid bytes || bytes != x.bytes)) }
      rsq.sentSince := s.rsq.sentSince || x.quiesce }
  | none => s

/-- A claim on the own slot: in MEMBER it marks a collision, else it is discarded (R38, R44). -/
def takeClaim (s : State) : State :=
  if s.slc.membership = .member then { s with slc.collisionMark := true } else s

/-- The realignment candidate after a misaligned block (R46). -/
def candidateAfter (old : Option Candidate) (c : Candidate) : Candidate :=
  match old with
  | none => c
  | some o =>
    if o.frameNumber < c.frameNumber ∨ (c.frameNumber = o.frameNumber ∧ c.slot < o.slot) then c else o

/-- A block is aligned: a slot's block whose slot counter at its start was the sender's slot (R38). -/
def aligned (r : Reception) (b : Block) : Bool := r.inSlot == some b.slot.toNat

/-- What a misaligned block does to the timing (R46, R56). -/
def takeMisaligned (r : Reception) (b : Block) (s : State) : State :=
  let s1 : State := { s with slc.misalignCount := satInc s.slc.misalignCount }
  let c : Candidate := { start := r.start, slot := b.slot.toNat, frameNumber := b.frameNumber }
  if onLine s then { s1 with slc.candidate := some (candidateAfter s.slc.candidate c) }
  else retime r.start b.slot.toNat s1

/-- The timing effect of a block that is not a claim: untimed, aligned or misaligned (R38, R46). -/
def timeBlock (r : Reception) (b : Block) (s : State) : State :=
  if s.slc.timing.isNone then retime r.start b.slot.toNat s
  else if aligned r b then s
  else takeMisaligned r b s

/-- The greater of two frame numbers. -/
def greater (a b : Word) : Word := if a < b then b else a

/-- The first valid block of LISTEN stops the timer, times the station and is adopted (R40; log 18). -/
def adopt (r : Reception) (b : Block) (s : State) : State :=
  if s.slc.membership = .listen ∧ s.slc.heardFirst = false then
    retime r.start b.slot.toNat
      { s with slc := { s.slc with
          listenEnd := none
          heardFirst := true
          frameNumber := greater s.slc.frameNumber (satInc b.frameNumber) } }
  else s

/-- A valid block that is not malformed, sorted and taken (R38, R40, R46, R51). -/
def sortBlock (r : Reception) (b : Block) (s : State) : State :=
  if ownSlot s = some b.slot.toNat then takeClaim s
  else takeEntry b (adopt r b (timeBlock r b s))

/-- A block heard from the line (R37). -/
def takeBlock (bytes : List Byte) (s : State) : State :=
  match s.slc.rx with
  | some r =>
    let s1 : State := { s with slc.rx := none }
    if !blockValid bytes || blockMalformed (decodeBlock bytes) then countLineError s1
    else sortBlock r (decodeBlock bytes) s1
  | none => s

/-- The meaning of BLOCK_RECEIVED: a reception ends, of a block of the line or of the own transmission read back
(R37, R38, R44). -/
def execBlockReceived (t : Nat) (readback : Bool) (bytes : List Byte) (s : State) :
    Host.Outcome State Fault Refusal :=
  .next (if readback then takeReadback bytes (s.moveTo t) else takeBlock bytes (s.moveTo t))

/-! Transmission. -/

/-- The own block is assembled and sent at an instant (R43, R49). -/
def transmit (own instant : Nat) (s : State) : State :=
  { s with slc := { s.slc with
      timing := s.slc.timing.map (fun g => { g with taken := true })
      tx := some { start := instant, bytes := encodeBlock (ownBlock own s), quiesce := s.rsq.quiesce } } }

/-- A MEMBER whose own slot starts at the instant transmits (R43). -/
def transmitAt (instant : Nat) (s : State) : State :=
  match s.slc.timing, ownSlot s with
  | some g, some own =>
    if s.slc.membership = .member ∧ g.slot = own ∧ g.nominal = instant then transmit own instant s else s
  | _, _ => s

/-! Starting alone. -/

/-- SLC when the listen timer has run out at an instant. A reception in progress is sorted against the grid declared:
a block that began before the instant is a stray block, one that begins at it or later in the window of slot 0 is that
slot's block (R35, R42). -/
def declareAlone (instant : Nat) (p : Slc) : Slc :=
  let alone : Slc :=
    { p with
      membership := .member
      listenEnd := none
      timing := some
        { slot := 0, nominal := instant, next := instant + Config.slotLength, taken := false
          lastFrameEnd := lastFrameEnd p.timing, gridStart := instant } }
  match p.rx with
  | some r => blockBegins r.start alone
  | none => alone

/-- The listen timer runs out; the change of membership goes to RSQ (R42, R43, R56, R111). -/
def startAlone (s : State) : State :=
  match s.slc.membership, s.slc.listenEnd with
  | .listen, some instant =>
    let s1 := s.moveTo instant
    transmitAt instant (readyTest { s1 with slc := declareAlone instant s1.slc })
  | _, _ => s

/-- The meaning of START_ALONE (R42). -/
def execStartAlone (s : State) : Host.Outcome State Fault Refusal := .next (startAlone s)

/-! The frame end at SLC (R55). -/

/-- The frame number that a LIVE entry other than the own offers: its carried number plus one (R48). -/
def offered (s : State) (j : Nat) : Option Word :=
  if ownSlot s ≠ some j ∧ (peerEntry s j).state = .live then some (satInc (peerEntry s j).frameNumber) else none

/-- The frame number after the update (R48). -/
def nextFrameNumber (s : State) : Word :=
  ((List.range 12).filterMap (offered s)).foldl greater (satInc s.slc.frameNumber)

/-- Step 1: the peer table ages. -/
def stepAge (s : State) : State := { s with slc.peers := agePeers (ownSlot s) s.slc.peers }

/-- Step 2: the frame number, in MEMBER or MUTE. -/
def stepNumber (s : State) : State := if onLine s then { s with slc.frameNumber := nextFrameNumber s } else s

/-- Step 4: the collision run, in MEMBER, with the entry to MUTE (R44). -/
def stepCollision (s : State) : State :=
  if s.slc.membership = .member then
    let p := s.slc
    if p.collisionMark then
      let run := p.collisionRun + 1
      { s with slc := { p with
          collisionRun := run
          collisionCount := satInc p.collisionCount
          collisionMark := false
          membership := if run = 3 then .mute else .member
          duplicate := p.duplicate || run == 3 } }
    else { s with slc := { p with collisionRun := 0 } }
  else s

/-- A candidate wins over the own number and slot (R47). -/
def candidateWins (c : Candidate) (ownNumber : Word) (own : Option Nat) : Bool :=
  decide (ownNumber < c.frameNumber) ||
    (c.frameNumber == ownNumber && (match own with | some n => decide (c.slot < n) | none => false))

/-- Step 5: the misalignment run and the realignment, in MEMBER or MUTE; `before` is the own frame number during the
frame just ended (R46, R47; log 17). -/
def stepAlign (before : Word) (instant : Nat) (s : State) : State :=
  if onLine s then
    match s.slc.candidate with
    | none => { s with slc.misalignRun := 0 }
    | some c =>
      let run := min 2 (s.slc.misalignRun + 1)
      if run = 2 ∧ candidateWins c before (ownSlot s) = true then
        { s with slc := { s.slc with
            misalignRun := 0
            candidate := none
            timing := some (gridAt c.start c.slot instant false (lastFrameEnd s.slc.timing)) } }
      else { s with slc := { s.slc with misalignRun := run, candidate := none } }
  else s

/-- Step 6: LISTEN becomes MEMBER after the first valid block (R41). -/
def stepJoin (s : State) : State :=
  if s.slc.membership = .listen ∧ s.slc.heardFirst = true then { s with slc.membership := .member } else s

/-- A change of membership is handed to RSQ (R56, R111). -/
def handMembership (before : Membership) (s : State) : State :=
  if s.slc.membership = before then s else readyTest s

/-- SLC's work at a frame end, after the own demand is set (R55, R69). -/
def frameEndSlc (instant : Nat) (s : State) : State :=
  let s1 := fillOwn (stepNumber (stepAge (setDemand s)))
  handMembership s.slc.membership
    (stepJoin (stepAlign s.slc.frameNumber instant (stepCollision s1)))

/-! Frame ends at the other blocks. -/

/-- The order in which the work of a frame end is taken when the operand names none. -/
def frameParts : List FramePart := [.allocate, .exhaust, .classify, .follow, .transmit]

/-- RSQ's check takes the count that ESA hands, and a request is executed after the following (R59, R118, R157). -/
def withPrerequisites (order : List FramePart) : List FramePart :=
  order.flatMap (fun p => match p with
    | .exhaust => [.allocate, .exhaust]
    | .execute => [.follow, .execute]
    | p => [p])

/-- One part of the work at a frame end. -/
def framePart (k : FrameTaking) (instant : Nat) (p : FramePart) (s : State) : State :=
  match p with
  | .allocate => allocate s
  | .exhaust => exhaustTest s
  | .classify => windowStep k.limitFirst k.expiryApart s
  | .follow => follow s
  | .transmit => transmitAt instant s
  | .execute => executeStanding s

/-- The frame end: SLC's work, then that of the other blocks in the order of the operand (R55; log 8). -/
def frameEnd (k : FrameTaking) (instant : Nat) (s : State) : State :=
  (takingOrder (withPrerequisites k.order) frameParts).foldl (fun s p => framePart k instant p s)
    (frameEndSlc instant s)

/-! Slot starts. -/

/-- The next slot begins at its nominal start (R35, R36). -/
def nextSlot (g : Timing) : Timing where
  slot := (g.slot + 1) % 12
  nominal := g.next
  next := g.next + Config.slotLength
  taken := false
  lastFrameEnd := if (g.slot + 1) % 12 = 0 then some g.next else g.lastFrameEnd
  gridStart := g.gridStart

/-- The nominal start of the next slot arrives: a frame end after slot 11, and the own transmission in the own slot
(R35, R36, R43). An untimed station has no slots (R34). -/
def slotStarts (k : FrameTaking) (s : State) : State :=
  match s.slc.timing with
  | some g =>
    let s1 : State := { s.moveTo g.next with slc.timing := some (nextSlot g) }
    if (g.slot + 1) % 12 = 0 then frameEnd k g.next s1 else transmitAt g.next s1
  | none => s

/-- The meaning of SLOT_START (R35). -/
def execSlotStart (k : FrameTaking) (s : State) : Host.Outcome State Fault Refusal := .next (slotStarts k s)

end Sys2Proof.Machine
end

