-- ==== Sys2Proof/Machine/StartUp.lean ====
section
/-! DEFINITION. CFL: the straps, the image, clamping, the response table, the coming into force; and the commands of
power-on, the RESET input, the load and the soft reset (R7, R57, R132, R153, R167 to R178, R182). -/

namespace Sys2Proof.Machine

/-! Reset. -/

/-- Every block in its initial state, with the RESET input held; the other inputs, the instant and the queue stand
(R7, R19, R33, R57, R71, R88, R108, R134, R152, R166, R177; log 10). -/
def initialState (s : State) : State :=
  { State.reset with
    pins := { s.pins with resetHeld := true }
    now := s.now
    pending := s.pending }

/-- The meaning of POWER_ON (R177). -/
def execPowerOn (s : State) : Host.Outcome State Fault Refusal := .next (initialState s)

/-- The meaning of RESET_ASSERTED: line and sample activity are cut off where they stand (R7, R43, R57). -/
def execResetAsserted (s : State) : Host.Outcome State Fault Refusal := .next (initialState s)

/-- The meaning of RESET_RELEASED: every block starts from the initial state that it holds while RESET is asserted
(R7, R57, R168, R177); a RESET input that is not held is not released (log 25). -/
def execResetReleased (t : Nat) (straps : BitVec 4) (s : State) : Host.Outcome State Fault Refusal :=
  .next
    (if s.pins.resetHeld then startUp straps { initialState (s.moveTo t) with pins.resetHeld := false }
     else s.moveTo t)

/-! The image. -/

/-- The values of the 24 parameters as they stand in an image (R182). -/
def rawSettings (image : List Byte) : Config.Settings :=
  let v := fun n => (halfAt image (4 + 2 * n)).toNat
  { fNom := v 0, vNom := v 1, pMax := v 2, vKnee := v 3, vFloor := v 4, k := v 5
    cls := v 6, rating := v 7, sagThreshold := v 8, recoverThreshold := v 9, rmsPersistence := v 10
    instThreshold := v 11, instPersistence := v 12, recoverPersistence := v 13, uMax := v 14, turns := v 15
    linkReady := v 16, linkMin := v 17, iTrip := v 18, rampLength := v 19, refAgeLimit := v 20
    holdoverLimit := v 21, layoutCode := v 22, postTail := v 23 }

/-- f_nom in its two legal values (R170). -/
def clampFNom (x : Nat) : Nat := if x < 55 then 50 else 60

/-- Each value brought into its own range (R170). -/
def clampRanges (c : Config.Settings) : Config.Settings where
  fNom := clampFNom c.fNom
  vNom := clampNat 1000 3000 c.vNom
  pMax := clampNat 10 4000 c.pMax
  vKnee := clampNat 1000 11000 c.vKnee
  vFloor := clampNat 500 10900 c.vFloor
  k := clampNat 0 11 c.k
  cls := clampNat 0 3 c.cls
  rating := clampNat 1 1000 c.rating
  sagThreshold := clampNat 500 980 c.sagThreshold
  recoverThreshold := clampNat 600 1000 c.recoverThreshold
  rmsPersistence := clampNat 1 64 c.rmsPersistence
  instThreshold := clampNat 100 2000 c.instThreshold
  instPersistence := clampNat 1 16 c.instPersistence
  recoverPersistence := clampNat 16 512 c.recoverPersistence
  uMax := clampNat 200 4000 c.uMax
  turns := clampNat 250 4000 c.turns
  linkReady := clampNat 1000 11000 c.linkReady
  linkMin := clampNat 500 10900 c.linkMin
  iTrip := clampNat 10 4000 c.iTrip
  rampLength := clampNat 16 1024 c.rampLength
  refAgeLimit := clampNat 1 250 c.refAgeLimit
  holdoverLimit := clampNat 10 3000 c.holdoverLimit
  layoutCode := clampNat 0 2 c.layoutCode
  postTail := clampNat 0 2 c.postTail

/-- The recover threshold kept above the sag threshold (R171). -/
def recoverAbove (sag recover : Nat) : Nat := if recover ≤ sag then sag + 10 else recover

/-- The three cross-field clamps (R171). -/
def clampCross (c : Config.Settings) : Config.Settings :=
  { c with
    recoverThreshold := recoverAbove c.sagThreshold c.recoverThreshold
    vFloor := min c.vFloor (c.vKnee - 100)
    linkMin := min c.linkMin (c.linkReady - 100) }

/-- The working settings of an accepted image (R170, R171). -/
def workingSettings (image : List Byte) : Config.Settings := clampCross (clampRanges (rawSettings image))

/-! The response table. -/

/-- A response table entry decoded, and whether decoding clamped a field (R172, R182). -/
structure DecodedEntry where
  entry : TableEntry
  clamped : Bool
  deriving DecidableEq, Repr

/-- Class match code (R172, R182). -/
def decodeMatch (code : BitVec 2) : ClassMatch × Bool :=
  match code.toNat with
  | 0 => (.grid, false)
  | 1 => (.localOnly, false)
  | 2 => (.any, false)
  | _ => (.any, true)

/-- Method code (R172, R182). -/
def decodeMethod (code : BitVec 2) : TableMethod × Bool :=
  match code.toNat with
  | 0 => (.presag, false)
  | 1 => (.inphase, false)
  | 2 => (.withdraw, false)
  | _ => (.inphase, true)

/-- Class override code; none is KEEP (R172, R182). -/
def decodeOverride (code : BitVec 3) : Option (BitVec 2) × Bool :=
  match code.toNat with
  | 0 => (some 0, false)
  | 1 => (some 1, false)
  | 2 => (some 2, false)
  | 3 => (some 3, false)
  | 7 => (none, false)
  | _ => (none, true)

/-- An entry of eight bytes decoded field by field (R172, R182). -/
def decodeEntry (bytes : List Byte) : DecodedEntry :=
  let b0 := byteAt bytes 0
  let b5 := byteAt bytes 5
  let lo := (halfAt bytes 1).toNat
  let hi := (halfAt bytes 3).toNat
  let limit := (halfAt bytes 6).toNat
  let m := decodeMatch (b0.extractLsb' 5 2)
  let w := decodeMethod (b5.extractLsb' 6 2)
  let o := decodeOverride (b5.extractLsb' 3 3)
  { entry :=
      { classMatch := m.1
        phaseSet := b0.extractLsb' 0 3
        lo := min lo 1500
        hi := min hi 1500
        method := w.1
        override := o.1
        capture := b5.getLsbD 0
        limit := min limit 3000
        endFlag := b0.getLsbD 7 }
    clamped := m.2 || w.2 || o.2 || decide (1500 < lo) || decide (1500 < hi) || decide (3000 < limit) }

/-- The entries of an image's table, eight bytes each (R182). -/
def tableBytes (image : List Byte) : List (List Byte) :=
  (List.range (((halfAt image 2).toNat - 54) / 8)).map (fun n => (image.drop (52 + 8 * n)).take 8)

/-- An entry's end flag (R182). -/
def endFlagSet (bytes : List Byte) : Bool := (byteAt bytes 0).getLsbD 7

/-- The entries up to and including the first with the end flag, and those after it (R79, R172). -/
def splitTable : List (List Byte) → List (List Byte) × List (List Byte)
  | [] => ([], [])
  | e :: es => if endFlagSet e then ([e], es) else (e :: (splitTable es).1, (splitTable es).2)

/-- An entry in force is void (R79, R172). -/
def isVoid (e : TableEntry) : Bool := decide (e.hi < e.lo)

/-- The void mask of the entries in force (R172, R176). -/
def voidMaskOf (es : List TableEntry) : BitVec 12 :=
  BitVec.ofNat 12 (((List.range 12).map (fun n => if (es[n]?.map isVoid).getD false then 2 ^ n else 0)).sum)

/-! The result of a load. -/

/-- What a load puts in force. -/
structure LoadResult where
  settings : Config.Settings
  defaultsFlag : Bool
  source : Source
  reason : Reason
  clamped : Bool
  table : List TableEntry
  unused : List (List Byte)
  deriving DecidableEq, Repr

/-- The built-in defaults, with a reason (R173). -/
def defaultsResult (reason : Reason) : LoadResult where
  settings := Config.defaults
  defaultsFlag := true
  source := .defaults
  reason := reason
  clamped := false
  table := []
  unused := []

/-- The length of an image is legal: 54 to 150, 54 plus a multiple of 8 (R169, R182). -/
def lengthLegal (n : Nat) : Bool := decide (54 ≤ n) && decide (n ≤ 150) && (n - 54) % 8 == 0

/-- An accepted image (R170 to R172). -/
def imageResult (image : List Byte) : LoadResult :=
  let parts := splitTable (tableBytes image)
  let decoded := parts.1.map decodeEntry
  { settings := workingSettings image
    defaultsFlag := false
    source := .image
    reason := .none
    clamped := decide (workingSettings image ≠ rawSettings image) || decoded.any DecodedEntry.clamped
    table := decoded.map DecodedEntry.entry
    unused := parts.2 }

/-- The checks of a load, in order: the header must arrive, its format and length must be right, the bytes it states
must arrive, and the CRC must agree (R168, R169, R182; log 13). -/
def loadImage (image : List Byte) : LoadResult :=
  let n := (halfAt image 2).toNat
  if image.length < 4 then defaultsResult .noAnswer
  else if halfAt image 0 ≠ 1 then defaultsResult .badFormat
  else if lengthLegal n = false then defaultsResult .badFormat
  else if image.length < n then defaultsResult .noAnswer
  else if crc16 (image.take (n - 2)) ≠ halfAt image (n - 2) then defaultsResult .badCrc
  else imageResult image

/-! Coming into force (R174). -/

/-- The layout in force after a coming into force: fixed at the first (R135). -/
def layoutAfter (old : Option Layout) (c : Config.Settings) : Layout := old.getD (layoutOf c.layoutCode)

/-- CFL's own change (R174, R175, R176; log 32). -/
def cflInForce (r : LoadResult) (layout : Option Layout) (c : Cfl) : Cfl :=
  { c with
    settings := r.settings
    digest := digestOf r.settings
    defaultsFlag := r.defaultsFlag
    source := r.source
    reason := r.reason
    clamped := r.clamped
    voidMask := voidMaskOf r.table
    entriesInForce := r.table.length
    layoutHeld := r.source == .image && decide (layoutAfter layout r.settings ≠ layoutOf r.settings.layoutCode)
    loading := false }

/-- The foreign flags re-evaluated against a digest, the own entry's never set (R53). -/
def reflag (own : Option Nat) (digest : Half) (peers : List PeerEntry) : List PeerEntry :=
  peers.mapIdx (fun j e => if own = some j then e else { e with foreign := foreignTo digest e.slow })

/-- SLC leaves DOWN for LISTEN with valid straps, and the listen timer starts (R39, R40). -/
def enterListen (s : State) : State :=
  if (ownSlot s).isSome = true ∧ s.slc.membership = .down then
    { s with slc := { s.slc with
        membership := .listen
        heardFirst := false
        listenEnd := some (s.now + Config.listenLength) } }
  else s

/-- The settings come into force at every block, at one moment (R174). -/
def comeIntoForce (r : LoadResult) (s : State) : State :=
  let s1 : State :=
    { s with
      cfl := cflInForce r s.cst.layout s.cfl
      pru := { acquireEntry s.pru with fEst := 1000 * r.settings.fNom }
      evc := { s.evc with table := r.table, unused := r.unused }
      cst.layout := some (layoutAfter s.cst.layout r.settings) }
  leaveOff (enterListen { s1 with slc.peers := reflag (ownSlot s1) s1.cfl.digest s1.slc.peers })

/-- A load in flight ends with a result (R168, R174; log 25). -/
def endLoad (r : LoadResult) (s : State) : State := if s.cfl.loading then comeIntoForce r s else s

/-- The meaning of MEMORY_NO_ANSWER (R168, R173). -/
def execMemoryNoAnswer (t : Nat) (s : State) : Host.Outcome State Fault Refusal :=
  .next (endLoad (defaultsResult .noAnswer) (s.moveTo t))

/-- The meaning of LOAD_COMPLETION (R169 to R174). -/
def execLoadCompletion (t : Nat) (image : List Byte) (s : State) : Host.Outcome State Fault Refusal :=
  .next (endLoad (loadImage image) (s.moveTo t))

/-! The soft reset. -/

/-- The meaning of SOFT_RESET_CARRIED_OUT (R132, R177, R178; log 26). -/
def execSoftResetCarriedOut (t : Nat) (straps : BitVec 4) (s : State) : Host.Outcome State Fault Refusal :=
  .next (if softResetReady s then carryOutReset straps (s.moveTo t) else s.moveTo t)

end Sys2Proof.Machine
end

