-- ==== Sys2Proof/Machine/Dispatch.lean ====
section
/-! DEFINITION. The meaning of each command, one arm for each constructor. -/

namespace Sys2Proof.Machine

/-- The effect of a command on everything but the queue. -/
def exec (i : Instr) (s : State) : Host.Outcome State Fault Refusal :=
  match i with
  | .powerOn => Sys2Proof.Machine.execPowerOn s
  | .resetAsserted => Sys2Proof.Machine.execResetAsserted s
  | .resetReleased t straps => Sys2Proof.Machine.execResetReleased t straps s
  | .memoryNoAnswer t => Sys2Proof.Machine.execMemoryNoAnswer t s
  | .loadCompletion t image => Sys2Proof.Machine.execLoadCompletion t image s
  | .enableAsserted t => Sys2Proof.Machine.execEnableAsserted t s
  | .enableDeasserted t => Sys2Proof.Machine.execEnableDeasserted t s
  | .faultInputActive t f taking => Sys2Proof.Machine.execFaultInputActive t f taking s
  | .strobe => Sys2Proof.Machine.execStrobe s
  | .sampleSetArrival t set taking => Sys2Proof.Machine.execSampleSetArrival t set taking s
  | .arrivalDeadline taking => Sys2Proof.Machine.execArrivalDeadline taking s
  | .holdoverLimit => Sys2Proof.Machine.execHoldoverLimit s
  | .closeWaitTimeout p taking => Sys2Proof.Machine.execCloseWaitTimeout p taking s
  | .durationExpiry => Sys2Proof.Machine.execDurationExpiry s
  | .captureCompletion => Sys2Proof.Machine.execCaptureCompletion s
  | .blockStart t => Sys2Proof.Machine.execBlockStart t s
  | .blockReceived t readback bytes => Sys2Proof.Machine.execBlockReceived t readback bytes s
  | .startAlone => Sys2Proof.Machine.execStartAlone s
  | .slotStart taking => Sys2Proof.Machine.execSlotStart taking s
  | .readItem g tag item => Sys2Proof.Machine.execReadItem g tag item s
  | .readRecord g tag slot word => Sys2Proof.Machine.execReadRecord g tag slot word s
  | .readPeer g tag slot field => Sys2Proof.Machine.execReadPeer g tag slot field s
  | .freeRecords g tag n => Sys2Proof.Machine.execFreeRecords g tag n s
  | .clearLockout g tag => Sys2Proof.Machine.execClearLockout g tag s
  | .testCapture g tag => Sys2Proof.Machine.execTestCapture g tag s
  | .softReset g tag => Sys2Proof.Machine.execSoftReset g tag s
  | .badCodeRequest g tag code => Sys2Proof.Machine.execBadCodeRequest g tag code s
  | .softResetCarriedOut t straps => Sys2Proof.Machine.execSoftResetCarriedOut t straps s
  | .faultInputCleared t f => Sys2Proof.Machine.execFaultInputCleared t f s

end Sys2Proof.Machine
end

