-- ==== Sys2Proof/Safety.lean ====
section
/-! DEFINITION. What must hold of a state of the part: the outputs to the plant, the ring of capture slots, the capture
memory, the readiness of the restorer, the working settings, and the peer table. Each is a property that the manual
states of every moment. -/

namespace Sys2Proof.Machine

/-- The capture memory is in its canonical form. -/
def MemoryCanonical (s : State) : Prop := Memory.wf s.cst.mem = true

/-- Bridge, bypasses, waits and port agree with the restorer state (R101, R109). -/
structure OutputsAgree (s : State) : Prop where
  bridge : s.rsq.bridge = eventActive s
  injectOpen : s.rsq.state = .inject → s.rsq.bypassOpen = Phases.same true
  releaseOpen : s.rsq.state = .release → s.rsq.bypassOpen.any = true
  closed : eventActive s = false → s.rsq.bypassOpen = Phases.same false
  port : eventActive s = false → s.inc.port = Phases.same 0

/-- The pre-trigger history holds 128 arrivals (R137, R152), and the pointers, the FULL count and the filling slot agree
(R136); before the layout is fixed the store is empty (R152). -/
def RingAgrees (s : State) : Prop :=
  s.cst.history.length = 128 ∧
  match s.cst.layout with
  | some l =>
    s.cst.oldest < l.slots ∧ s.cst.full ≤ l.slots ∧ (s.cst.oldest + s.cst.full) % l.slots = s.cst.fill ∧
      (s.cst.filling.isSome = true → s.cst.full < l.slots)
  | none => s.cst.oldest = 0 ∧ s.cst.fill = 0 ∧ s.cst.full = 0 ∧ s.cst.filling = none

/-- Ramp factor and ratios lie in 0..32768, and the ramp factor is one in INJECT (R98, R99, R105). -/
structure FractionsBounded (s : State) : Prop where
  full : s.rsq.state = .inject → s.inc.ramp = Config.one
  ramp : s.inc.ramp ≤ Config.one
  ratio : s.inc.ratio ≤ Config.one
  lowest : s.inc.lowest ≤ Config.one
  allocated : s.esa.ratio ≤ Config.one

/-- A load runs on a restorer in OFF; a restorer that is ready or in an event has a lock other than ACQUIRE and a
place on the line (R111, R112, R124, R174). -/
structure ReadinessHolds (s : State) : Prop where
  loading : s.cfl.loading = true → s.cfl.source = .loading ∧ s.rsq.state = .off
  lock : s.rsq.state = .ready ∨ s.rsq.state = .inject ∨ s.rsq.state = .release → s.pru.lock ≠ .acquire
  line : s.rsq.state = .ready ∨ s.rsq.state = .inject ∨ s.rsq.state = .release → onLine s = true

/-- A value lies in a range. -/
def Within (lo hi x : Nat) : Prop := lo ≤ x ∧ x ≤ hi

/-- Every value of the settings lies in its range, with the three gaps (R170, R171). -/
structure SettingsLegal (c : Config.Settings) : Prop where
  fNom : c.fNom = 50 ∨ c.fNom = 60
  vNom : Within 1000 3000 c.vNom
  pMax : Within 10 4000 c.pMax
  vKnee : Within 1000 11000 c.vKnee
  vFloor : Within 500 (c.vKnee - 100) c.vFloor
  k : Within 0 11 c.k
  cls : Within 0 3 c.cls
  rating : Within 1 1000 c.rating
  sagThreshold : Within 500 980 c.sagThreshold
  recoverThreshold : Within 600 1000 c.recoverThreshold
  recoverAbove : c.sagThreshold < c.recoverThreshold
  rmsPersistence : Within 1 64 c.rmsPersistence
  instThreshold : Within 100 2000 c.instThreshold
  instPersistence : Within 1 16 c.instPersistence
  recoverPersistence : Within 16 512 c.recoverPersistence
  uMax : Within 200 4000 c.uMax
  turns : Within 250 4000 c.turns
  linkReady : Within 1000 11000 c.linkReady
  linkMin : Within 500 (c.linkReady - 100) c.linkMin
  iTrip : Within 10 4000 c.iTrip
  rampLength : Within 16 1024 c.rampLength
  refAgeLimit : Within 1 250 c.refAgeLimit
  holdoverLimit : Within 10 3000 c.holdoverLimit
  layoutCode : Within 0 2 c.layoutCode
  postTail : Within 0 2 c.postTail

/-- The working settings are legal and the own digest is theirs (R171, R175). -/
structure ConfigurationSound (s : State) : Prop where
  settings : SettingsLegal s.settings
  digest : s.cfl.digest = digestOf s.settings

/-- An entry's missed count agrees with its state, and an ABSENT entry is cleared (R50, R54). -/
structure EntrySound (e : PeerEntry) : Prop where
  live : e.state = .live → e.missed = 0
  held : e.state = .held → Within 1 4 e.missed
  absent : e.state = .absent → e = PeerEntry.absent

/-- Twelve entries, each sound (R50, R54). -/
def PeerTableSound (s : State) : Prop := s.slc.peers.length = 12 ∧ ∀ e ∈ s.slc.peers, EntrySound e

end Sys2Proof.Machine
end

