-- ==== Sys2Proof/Certificates/Slice0/Obligations.lean ====
section
/-! DEFINITION. The statements for the provers. -/

section Statements

open Sys2Proof Sys2Proof.Machine

/-! The queue and the clock. -/

/-- A step takes the front command and runs it on the state with the queue's rest; an empty queue idles (log 1). -/
def Obligations.StepRunsFrontCommand : Prop :=
  (∀ (c : Instr) (rest : List Instr) (s : State), s.pending = c :: rest →
    step s = exec c { s with pending := rest }) ∧
  (∀ s : State, s.pending = [] → step s = .next s)

/-- Every command answers a next state (log 30), leaves the queue (log 1), never moves the clock back (log 2), and never
lowers the frame number, POWER_ON and the RESET input apart (R48, R57). -/
def Obligations.EveryCommandAnswers : Prop :=
  ∀ (c : Instr) (s : State), ∃ u, exec c s = .next u ∧ u.pending = s.pending ∧ s.now ≤ u.now ∧
    (c ≠ .powerOn → c ≠ .resetAsserted → (∀ t straps, c ≠ .resetReleased t straps) →
      s.slc.frameNumber.toNat ≤ u.slc.frameNumber.toNat)

/-! Resets and configuration. -/

/-- POWER_ON and RESET_ASSERTED give every block its initial state; the inputs other than RESET, the instant and the
queue stand (R57, R177; log 10, 11). -/
def Obligations.PowerOnAndResetAsserted : Prop :=
  ∀ s : State,
    exec .powerOn s = .next
      { State.reset with
        pins := { s.pins with resetHeld := true }, now := s.now, pending := s.pending } ∧
    exec .resetAsserted s = exec .powerOn s

/-- Every block's whole record after power-on, by the manual's tables of initial values (R7, R19, R33, R57, R71, R88,
R108, R134, R152, R166, R177), and the built-in defaults that it holds (R173). The fields that none of these tables
names (the event number, the model's own marks, what is noted of a run, a cycle, a block or a load in progress) are 0,
none, clear or empty by the model's choice (log 24), and so are the levels of the inputs, the clock and the queue (log
1, 11). -/
def Obligations.ValuesAfterPowerOn : Prop :=
  let zeros : List (Phases Int) := List.replicate 128 (Phases.same 0)
  State.reset.spt =
    { lastGood := ⟨Phases.same 0, Phases.same 0, 0, 0⟩, missRun := 0, faultCount := 0, outstanding := none } ∧
  State.reset.pru =
    { lock := .acquire, fEst := 50000, index := 0, goodCount := 0, holdoverCount := 0
      ref := { samples := zeros, rms := Phases.same 0, age := 65535, valid := false }
      candidate := zeros, run := none, dc := 0, prevVA := none
      cycle :=
        { crossings := 0, firstD := none, lowA := false, missing := false, unhealthy := false, eventEnded := false } } ∧
  State.reset.sdu =
    { history := zeros, sum64 := Phases.same 0, sum128 := Phases.same 0, rms := Phases.same 0, residual := Phases.same 0
      detectors := Phases.same
        { rmsFlag := false, belowRun := 0, aboveRun := 0, instFlag := false, overRun := 0, withinRun := 0 }
      flags := Phases.same false, prevFlags := Phases.same false
      record :=
        { isOpen := false, onsetMask := Phases.same false, sinceMask := Phases.same false, rMin := Phases.same 1500 }
      recovery := 0 } ∧
  State.reset.evc =
    { eventClass := .pending, window := false, windowCount := 0, coincidence := 0, matched := none, override := none
      limit := none, cycles := 0, withdrawn := false, stale := false, table := [], unused := [], expiryDue := false } ∧
  State.reset.inc =
    { port := Phases.same 0, method := .inphase, ramp := 32768, rampCount := 0, limited := false, energy := 0
      lowest := 32768, ratio := 32768, demand := 0, pDem := 0, nDem := 0 } ∧
  State.reset.rsq =
    { state := .off, bypassOpen := Phases.same false, bridge := false, waits := Phases.same none, rampDone := false
      linkLow := 0, overRun := 0, eventCounter := 0, event := 0, endCause := .none, resag := false
      lastEndCause := .none, overEnds := [], overEndCount := 0, cycleCount := 0, quiesce := false, sentSince := false
      onsetArrival := false } ∧
  State.reset.esa = { budget := 0, zeroCount := 0, grant := 0, ratio := 32768 } ∧
  State.reset.slc =
    { membership := .down, timing := none, listenEnd := none, heardFirst := false, frameNumber := 0
      peers := List.replicate 12
        { state := .absent, missed := 0, heard := false, slow := none, candidate := none, foreign := false
          frameNumber := 0
          fast :=
            { restorer := 0, lock := 0, active := false, sagNow := Phases.same false, demand := 0, grant := 0, bus := 0
              link := 0, eventLow := 0, full := 0, rMinPercent := 0, eventClass := 0, resag := false, quiesce := false
              mute := false, request := 0 }
          sagPrev := Phases.same false }
      lineErrors := 0, collisionRun := 0, collisionCount := 0, collisionMark := false, misalignRun := 0
      misalignCount := 0, candidate := none, duplicate := false, rx := none, tx := none } ∧
  State.reset.cst =
    { mem := [], layout := none, oldest := 0, fill := 0, full := 0, filling := none, queued := none, missed := 0
      history := List.replicate 128 ⟨Phases.same 0, Phases.same 0⟩ } ∧
  State.reset.rqh =
    { reply := { requester := 0, tag := 0, status := .none, data := 0 }
      slots := List.replicate 12
        { previous := none, confirmed := false, baseline := none, baselinePending := true, lastTag := none }
      execOpen := false } ∧
  State.reset.cfl =
    { settings := Config.defaults, digest := digestOf Config.defaults, defaultsFlag := true, source := .loading
      reason := .none, badStrap := false, clamped := false, voidMask := 0, entriesInForce := 0, layoutHeld := false
      strap := 0, strapsRead := false, loading := false } ∧
  Config.defaults =
    { fNom := 50, vNom := 2300, pMax := 400, vKnee := 7000, vFloor := 5000, k := 1, cls := 3, rating := 100
      sagThreshold := 900, recoverThreshold := 950, rmsPersistence := 4, instThreshold := 600, instPersistence := 3
      recoverPersistence := 64, uMax := 2000, turns := 1000, linkReady := 6000, linkMin := 4000, iTrip := 1200
      rampLength := 128, refAgeLimit := 25, holdoverLimit := 250, layoutCode := 1, postTail := 1 } ∧
  State.reset.pins = { resetHeld := true, enable := false, desat := Phases.same false, overtemp := false } ∧
  State.reset.now = 0 ∧ State.reset.pending = []

/-- INC's state after each of the three resets (R108, and R71 for the four values that it leaves to R71). -/
def Obligations.InjectionInitialState : Prop :=
  let initial : Inc :=
    { port := ⟨0, 0, 0⟩, method := .inphase, ramp := 32768, rampCount := 0, limited := false, energy := 0
      lowest := 32768, ratio := 32768, demand := 0, pDem := 0, nDem := 0 }
  (∀ s : State, ∃ u, exec .powerOn s = .next u ∧ u.inc = initial) ∧
  (∀ s : State, ∃ u, exec .resetAsserted s = .next u ∧ u.inc = initial) ∧
  (∀ (t : Nat) (straps : BitVec 4) (s : State), softResetReady s = true →
    ∃ u, exec (.softResetCarriedOut t straps) s = .next u ∧ u.inc = initial)

/-- RESET_RELEASED starts every block from its initial state, reads the straps, starts the load and raises the first
strobe, whose deadline lies half of 156.25 microseconds on at 50000 mHz (R3, R7, R167, R168, R176, R177). The value read
is the own slot while it lies in 0..11 (R167). A RESET input that is not held is not released (log 25). -/
def Obligations.ResetReleasedStartsUp : Prop :=
  (∀ (t : Nat) (straps : BitVec 4) (s : State), s.pins.resetHeld = true →
    let start := max s.now t
    exec (.resetReleased t straps) s = .next
      { State.reset with
        pins := { s.pins with resetHeld := false }
        now := start
        pending := s.pending
        spt := { Spt.initial with outstanding := some { index := 0, deadline := start + 78125 } }
        pru := { Pru.initial with run := some { start := start, fEst := 50000, dc := 0 }, index := 1 }
        cfl := { Cfl.initial with
          strap := straps, strapsRead := true, badStrap := decide (12 ≤ straps.toNat), source := .loading
          loading := true } }) ∧
  (∀ (t : Nat) (straps : BitVec 4) (s : State), s.pins.resetHeld = false →
    exec (.resetReleased t straps) s = .next { s with now := max s.now t }) ∧
  (∀ (s : State) (j : Nat), ownSlot s = some j ↔ s.cfl.strapsRead = true ∧ s.cfl.strap.toNat = j ∧ j < 12)

/-- What both ends of a load put in force, and what they leave: the settings, the digest, the table with its void mask,
the layout if it is not yet fixed and LAYOUT_HELD if it differs, ACQUIRE at the new nominal frequency, LISTEN with its
timer, and the exit from OFF (R13, R39, R40, R53, R110, R128, R135, R172, R174, R175, R176; log 32). The digest is the
CRC-16 of the six common values, two bytes each, in image order; the own entry stands. With no load in flight nothing
happens (log 25). -/
def Obligations.SettingsComeIntoForce : Prop :=
  (∀ c : Config.Settings,
    let h := fun (n : Nat) => BitVec.ofNat 16 n
    digestOf c = crc16
      [(h c.fNom).extractLsb' 8 8, (h c.fNom).extractLsb' 0 8, (h c.vNom).extractLsb' 8 8, (h c.vNom).extractLsb' 0 8,
        (h c.pMax).extractLsb' 8 8, (h c.pMax).extractLsb' 0 8, (h c.vKnee).extractLsb' 8 8,
        (h c.vKnee).extractLsb' 0 8, (h c.vFloor).extractLsb' 8 8, (h c.vFloor).extractLsb' 0 8,
        (h c.k).extractLsb' 8 8, (h c.k).extractLsb' 0 8]) ∧
  ∀ (c : Instr) (t : Nat) (r : LoadResult) (s : State),
    (c = .memoryNoAnswer t ∧ r = defaultsResult .noAnswer) ∨
      (∃ image, c = .loadCompletion t image ∧ r = loadImage image) →
    (s.cfl.loading = false → exec c s = .next { s with now := max s.now t }) ∧
    (s.cfl.loading = true → s.slc.membership = .down → s.rsq.state = .off →
      ∃ u, exec c s = .next u ∧
        u = { s with
          now := max s.now t
          pru := { s.pru with
            lock := .acquire, goodCount := 0, holdoverCount := 0, fEst := 1000 * r.settings.fNom
            ref := { s.pru.ref with valid := false } }
          evc := { s.evc with table := r.table, unused := r.unused }
          rsq := { s.rsq with
            state :=
              if (ownSlot s).isSome = true ∧ s.pins.enable = true then
                (if faultActive s = true then .lockout else .charge)
              else .off }
          slc := { s.slc with
            membership := if (ownSlot s).isSome then .listen else .down
            heardFirst := if (ownSlot s).isSome then false else s.slc.heardFirst
            listenEnd := if (ownSlot s).isSome then some (max s.now t + 960000) else s.slc.listenEnd
            peers := u.slc.peers }
          cst := { s.cst with layout := some (s.cst.layout.getD (layoutOf r.settings.layoutCode)) }
          cfl := u.cfl } ∧
        (∀ j, ownSlot s ≠ some j →
          peerEntry u j = { peerEntry s j with foreign := foreignTo (digestOf r.settings) (peerEntry s j).slow }) ∧
        (∀ j, ownSlot s = some j → peerEntry u j = peerEntry s j) ∧
        u.cfl = { s.cfl with
          settings := r.settings, digest := digestOf r.settings, source := r.source, reason := r.reason
          defaultsFlag := r.defaultsFlag, clamped := r.clamped, entriesInForce := r.table.length, loading := false
          voidMask := u.cfl.voidMask, layoutHeld := u.cfl.layoutHeld } ∧
        (∀ n, n < 12 → (u.cfl.voidMask.getLsbD n = true ↔ ∃ e, r.table[n]? = some e ∧ e.hi < e.lo)) ∧
        (u.cfl.layoutHeld = true ↔
          r.source = .image ∧ ∃ l, s.cst.layout = some l ∧ l ≠ layoutOf r.settings.layoutCode))

/-- The checks of the image in their order and the reason each gives; the built-in defaults of a load that fails, an
absent memory's too; and of one that passes the 24 values from their byte positions, clamped, the response table's
entries in force decoded field by field, and CLAMPED (R79, R168, R169, R170, R171, R172, R173, R176, R182; log 13). -/
def Obligations.ImageChecksInOrder : Prop :=
  (∀ (bytes : List Byte) (n : Nat),
    byteAt bytes n = bytes.getD n 0 ∧ halfAt bytes n = bytes.getD n 0 ++ bytes.getD (n + 1) 0) ∧
  (∀ image : List Byte,
    let v := fun (n : Nat) => (halfAt image n).toNat
    rawSettings image =
      { fNom := v 4, vNom := v 6, pMax := v 8, vKnee := v 10, vFloor := v 12, k := v 14, cls := v 16, rating := v 18
        sagThreshold := v 20, recoverThreshold := v 22, rmsPersistence := v 24, instThreshold := v 26
        instPersistence := v 28, recoverPersistence := v 30, uMax := v 32, turns := v 34, linkReady := v 36
        linkMin := v 38, iTrip := v 40, rampLength := v 42, refAgeLimit := v 44, holdoverLimit := v 46
        layoutCode := v 48, postTail := v 50 }) ∧
  (∀ (t : Nat) (image : List Byte) (s : State), s.cfl.loading = true →
    let n := (halfAt image 2).toNat
    ∃ u, exec (.loadCompletion t image) s = .next u ∧
      (image.length < 4 → u.cfl.source = .defaults ∧ u.cfl.reason = .noAnswer) ∧
      (4 ≤ image.length → halfAt image 0 ≠ 1 → u.cfl.source = .defaults ∧ u.cfl.reason = .badFormat) ∧
      (4 ≤ image.length → halfAt image 0 = 1 → (n < 54 ∨ 150 < n ∨ (n - 54) % 8 ≠ 0) →
        u.cfl.source = .defaults ∧ u.cfl.reason = .badFormat) ∧
      (4 ≤ image.length → halfAt image 0 = 1 → 54 ≤ n → n ≤ 150 → (n - 54) % 8 = 0 → image.length < n →
        u.cfl.source = .defaults ∧ u.cfl.reason = .noAnswer) ∧
      (halfAt image 0 = 1 → 54 ≤ n → n ≤ 150 → (n - 54) % 8 = 0 → n ≤ image.length →
        crc16 (image.take (n - 2)) ≠ halfAt image (n - 2) →
        u.cfl.source = .defaults ∧ u.cfl.reason = .badCrc) ∧
      (halfAt image 0 = 1 → 54 ≤ n → n ≤ 150 → (n - 54) % 8 = 0 → n ≤ image.length →
        crc16 (image.take (n - 2)) = halfAt image (n - 2) →
        let m := (n - 54) / 8
        let first := fun j => byteAt image (52 + 8 * j)
        let sixth := fun j => byteAt image (57 + 8 * j)
        let lo := fun j => (halfAt image (53 + 8 * j)).toNat
        let hi := fun j => (halfAt image (55 + 8 * j)).toNat
        let limit := fun j => (halfAt image (58 + 8 * j)).toNat
        let inForce := fun j => j < m ∧ ∀ i, i < j → (first i).getLsbD 7 = false
        u.cfl.source = .image ∧ u.cfl.reason = .none ∧ u.settings = clampCross (clampRanges (rawSettings image)) ∧
        u.cfl.defaultsFlag = false ∧ u.evc.table.length + u.evc.unused.length = m ∧
        (∀ j, ¬ inForce j → u.evc.table[j]? = none) ∧
        (∀ j, inForce j → ∃ e, u.evc.table[j]? = some e ∧
          e.phaseSet = (first j).extractLsb' 0 3 ∧ e.endFlag = (first j).getLsbD 7 ∧ e.capture = (sixth j).getLsbD 0 ∧
          e.lo = min (lo j) 1500 ∧ e.hi = min (hi j) 1500 ∧ e.limit = min (limit j) 3000 ∧
          (e.classMatch = .grid ↔ (first j).extractLsb' 5 2 = 0) ∧
          (e.classMatch = .localOnly ↔ (first j).extractLsb' 5 2 = 1) ∧
          (e.method = .presag ↔ (sixth j).extractLsb' 6 2 = 0) ∧
          (e.method = .withdraw ↔ (sixth j).extractLsb' 6 2 = 2) ∧
          e.override = if ((sixth j).extractLsb' 3 3).toNat < 4 then some ((sixth j).extractLsb' 3 2) else none) ∧
        (u.cfl.clamped = true ↔ u.settings ≠ rawSettings image ∨
          ∃ j, inForce j ∧ ((first j).extractLsb' 5 2 = 3 ∨ (sixth j).extractLsb' 6 2 = 3 ∨
            (4 ≤ ((sixth j).extractLsb' 3 3).toNat ∧ ((sixth j).extractLsb' 3 3).toNat < 7) ∨
            1500 < lo j ∨ 1500 < hi j ∨ 3000 < limit j))) ∧
      (u.cfl.source = .defaults → u.settings = Config.defaults ∧ u.evc.table = [] ∧ u.cfl.clamped = false ∧
        u.cfl.voidMask = 0 ∧ u.cfl.defaultsFlag = true) ∧
      u.cfl.digest = digestOf u.settings ∧ u.cfl.entriesInForce = u.evc.table.length) ∧
  (∀ (t : Nat) (s : State), s.cfl.loading = true →
    ∃ u, exec (.memoryNoAnswer t) s = .next u ∧ u.settings = Config.defaults ∧ u.evc.table = [] ∧
      u.cfl.source = .defaults ∧ u.cfl.reason = .noAnswer ∧ u.cfl.clamped = false ∧ u.cfl.voidMask = 0 ∧
      u.cfl.defaultsFlag = true ∧ u.cfl.digest = digestOf Config.defaults)

/-- A value within its range stands and one beyond it takes the nearer end, f_nom below 55 becomes 50 and from 55 on 60
(R170); then the three cross-field clamps (R171). The clamped settings lie in their ranges with the three gaps, and
legal settings are used as they stand (R170, R171). -/
def Obligations.ClampedSettingsAreLegal : Prop :=
  (∀ c : Config.Settings,
    let u := clampRanges c
    let near := fun (lo hi x y : Nat) => (x < lo → y = lo) ∧ (lo ≤ x → x ≤ hi → y = x) ∧ (hi < x → y = hi)
    (c.fNom < 55 → u.fNom = 50) ∧ (55 ≤ c.fNom → u.fNom = 60) ∧ near 1000 3000 c.vNom u.vNom ∧
    near 10 4000 c.pMax u.pMax ∧ near 1000 11000 c.vKnee u.vKnee ∧ near 500 10900 c.vFloor u.vFloor ∧
    near 0 11 c.k u.k ∧ near 0 3 c.cls u.cls ∧ near 1 1000 c.rating u.rating ∧
    near 500 980 c.sagThreshold u.sagThreshold ∧ near 600 1000 c.recoverThreshold u.recoverThreshold ∧
    near 1 64 c.rmsPersistence u.rmsPersistence ∧ near 100 2000 c.instThreshold u.instThreshold ∧
    near 1 16 c.instPersistence u.instPersistence ∧ near 16 512 c.recoverPersistence u.recoverPersistence ∧
    near 200 4000 c.uMax u.uMax ∧ near 250 4000 c.turns u.turns ∧ near 1000 11000 c.linkReady u.linkReady ∧
    near 500 10900 c.linkMin u.linkMin ∧ near 10 4000 c.iTrip u.iTrip ∧ near 16 1024 c.rampLength u.rampLength ∧
    near 1 250 c.refAgeLimit u.refAgeLimit ∧ near 10 3000 c.holdoverLimit u.holdoverLimit ∧
    near 0 2 c.layoutCode u.layoutCode ∧ near 0 2 c.postTail u.postTail) ∧
  (∀ c : Config.Settings, clampCross c = { c with
    recoverThreshold := if c.recoverThreshold ≤ c.sagThreshold then c.sagThreshold + 10 else c.recoverThreshold
    vFloor := if c.vKnee - 100 < c.vFloor then c.vKnee - 100 else c.vFloor
    linkMin := if c.linkReady - 100 < c.linkMin then c.linkReady - 100 else c.linkMin }) ∧
  (∀ c : Config.Settings, SettingsLegal (clampCross (clampRanges c))) ∧
  (∀ c : Config.Settings, SettingsLegal c → clampCross (clampRanges c) = c)

/-- SOFT_RESET_CARRIED_OUT keeps the inputs, the frame number, the event number counter and the store, gives all else
its reset value, reads the straps, starts the load and raises the first strobe (R57, R132, R134, R153, R168, R177,
R178). A capture in fill is closed as FULL with the truncated summary of a test capture, and no byte outside that
summary changes (R150, R153, R181; log 23); its end position is read before SLC's reset, the model's choice (log 40).
Its conditions are those of R132; while they do not hold, nothing happens. An arrival whose operand says so carries it
out at the first moment between its parts at which they hold, and is abandoned there (R7, R132): a completion taken
before the onset's test lets it come before the onset. Without that it is a command of its own (log 26). -/
def Obligations.SoftResetKeepsStoreAndNumbers : Prop :=
  (∀ (t : Nat) (straps : BitVec 4) (s : State), softResetReady s = true →
    let start := max s.now t
    ∃ u, exec (.softResetCarriedOut t straps) s = .next u ∧
      u = { State.reset with
        pins := s.pins
        now := start
        pending := s.pending
        spt := { Spt.initial with outstanding := some { index := 0, deadline := start + 78125 } }
        pru := { Pru.initial with run := some { start := start, fEst := 50000, dc := 0 }, index := 1 }
        rsq := { Rsq.initial with eventCounter := s.rsq.eventCounter }
        slc := { Slc.initial with frameNumber := s.slc.frameNumber }
        cst := u.cst
        cfl := { Cfl.initial with
          strap := straps, strapsRead := true, badStrap := decide (12 ≤ straps.toNat), source := .loading
          loading := true } } ∧
      u.cst = { s.cst with
        mem := u.cst.mem, full := u.cst.full, fill := u.cst.fill, filling := u.cst.filling
        history := zeroHistory, queued := none } ∧
      (s.cst.filling = none →
        u.cst.mem = s.cst.mem ∧ u.cst.full = s.cst.full ∧ u.cst.fill = s.cst.fill ∧ u.cst.filling = none) ∧
      (∀ l f, s.cst.layout = some l → s.cst.filling = some f →
        u.cst.full = s.cst.full + 1 ∧ u.cst.fill = (s.cst.fill + 1) % l.slots ∧ u.cst.filling = none ∧
        (MemoryCanonical s →
          (∀ n : Fin 16, recordWord u.cst l s.cst.fill n =
            (summaryWords (testSummary { s with now := start } f true)).getD n 0) ∧
          (∀ a, a < summaryAddr s.cst.fill ∨ summaryAddr s.cst.fill + 64 ≤ a →
            Memory.read u.cst.mem a = Memory.read s.cst.mem a)))) ∧
  (∀ (t : Nat) (straps : BitVec 4) (s : State), softResetReady s = false →
    exec (.softResetCarriedOut t straps) s = .next { s with now := max s.now t }) ∧
  (∀ s : State, softResetReady s = true ↔
    s.rsq.quiesce = true ∧ s.rsq.state ≠ .inject ∧ s.rsq.state ≠ .release ∧
    (∀ c, s.cst.filling = some c → c.tail = none) ∧ (s.slc.membership = .member → s.rsq.sentSince = true)) ∧
  (∀ (straps : BitVec 4) (s : State), softResetReady s = true →
    exec (.softResetCarriedOut s.now straps) s = .next (carryOutReset straps s)) ∧
  (∀ (k : ArrivalTaking) (s : State) (o : Outstanding), s.spt.outstanding = some o →
    exec (.arrivalDeadline k) s = .next
      (takeParts k { index := o.index, before := s.spt.lastGood.i, sense := s.spt.missRun == 3 } (arrivalOrder k)
        (takeSet o.index none (settleDue (s.moveTo o.deadline)))) ∧
    ∀ (t : Nat) (set : RawSet), max s.now t < o.deadline → parityGood set = true →
      exec (.sampleSetArrival t set k) s = .next
        (takeParts k { index := o.index, before := s.spt.lastGood.i, sense := false } (arrivalOrder k)
          (takeSet o.index (some (saturatedSet set)) (settleDue (s.moveTo t))))) ∧
  (∀ (k : ArrivalTaking) (straps : BitVec 4) (a : Arrival) (ps : List ArrivalPart) (s : State),
    k.softReset = some straps → softResetReady s = true → takeParts k a ps s = carryOutReset straps s) ∧
  (∀ (k : ArrivalTaking) (a : Arrival) (s : State), k.softReset = none ∨ softResetReady s = false →
    takeParts k a [] s = s ∧
    ∀ p ps, takeParts k a (p :: ps) s = takeParts k a ps (arrivalPart k a p s)) ∧
  (∀ (t : Nat) (set : RawSet) (k : ArrivalTaking) (rest : List ArrivalPart) (straps : BitVec 4) (s : State)
    (o : Outstanding), s.spt.outstanding = some o → max s.now t < o.deadline → parityGood set = true →
    k.softReset = some straps → k.completion ≠ .apart → k.order = .completion :: rest →
    let s1 := takeSet o.index (some (saturatedSet set)) (settleDue (s.moveTo t))
    softResetReady s1 = false → softResetReady (completeDue s1) = true →
    exec (.sampleSetArrival t set k) s = exec (.softResetCarriedOut t straps) (completeDue s1))

/-- The working settings stay legal and the own digest stays theirs, through every step. -/
def Obligations.ConfigurationSoundKept : Prop :=
  ∀ s u : State, ConfigurationSound s → step s = .next u → ConfigurationSound u

/-! The sample path. -/

/-- STROBE raises the next strobe of the run, or begins a run with the frequency estimate and phase error then in force;
the strobes lie on the nanosecond at or before their exact times (R1, R8; log 3), and each deadline half an interval
after its strobe (R3). An outcome still owed is taken first, as a missing one (log 33); with no run in progress nothing
happens (log 25). The strobe of index 0 begins a cycle in which no event has ended yet (R17; log 27). -/
def Obligations.StrobeRaised : Prop :=
  (∀ (s : State) (r : Run), s.pru.run = some r → s.spt.outstanding = none → s.pru.index ≠ 0 →
    exec .strobe s = .next
      { s with
        now := max s.now (r.strobeAt s.pru.index)
        spt := { s.spt with
          outstanding := some { index := s.pru.index, deadline := r.strobeAt s.pru.index + r.half } }
        pru := { s.pru with index := (s.pru.index + 1) % 128 } }) ∧
  (∀ (s : State) (r : Run), s.pru.run = some r → s.spt.outstanding = none → s.pru.index = 0 →
    let next : Run := { start := r.strobeAt 128, fEst := s.pru.fEst, dc := s.pru.dc }
    exec .strobe s = .next
      { s with
        now := max s.now (r.strobeAt 128)
        spt := { s.spt with outstanding := some { index := 0, deadline := r.strobeAt 128 + next.half } }
        pru := { s.pru with
          run := some next, index := 1, cycle := { s.pru.cycle with eventEnded := false } } }) ∧
  (∀ s : State, s.pru.run = none → s.spt.outstanding = none → exec .strobe s = .next s) ∧
  (∀ s u : State, exec (.arrivalDeadline {}) s = .next u → exec .strobe s = exec .strobe u) ∧
  (∀ (r : Run) (k : Nat), 0 < r.fEst → r.start ≤ r.strobeAt k ∧
    (r.strobeAt k - r.start) * (262144 * r.fEst) ≤ k * (1000000000000 * (2048 + r.dc).toNat) ∧
    k * (1000000000000 * (2048 + r.dc).toNat) < (r.strobeAt k - r.start + 1) * (262144 * r.fEst)) ∧
  (∀ r : Run, 0 < r.fEst →
    r.half * (2 * (262144 * r.fEst)) ≤ 1000000000000 * (2048 + r.dc).toNat ∧
    1000000000000 * (2048 + r.dc).toNat < (r.half + 1) * (2 * (262144 * r.fEst)))

/-- A good set that arrives in time becomes the last good set and enters every history; the line, the allocation, the
requests, the configuration and the inputs are untouched (R3, R4, R16, R20, R137). This is an arrival that no soft reset
abandons (`SoftResetKeepsStoreAndNumbers`). What every arrival is made of, in the functions that the other statements
speak of: the timed steps still due are taken first, as their own commands take them (log 5); SPT's judgement, SDU's
measurement, PRU's notes, CST's set and the beginning of close waits follow (R4, R122); then the parts, each once and
those that the operand names first (log 4): SDU's tests (R26), the cycle end of index 127, INC's work (R89), the test
for READY, the link-low run (R118), the overcurrent run (R126), the close waits (R123) and a completion that is due
(R142). -/
def Obligations.GoodSetTaken : Prop :=
  (∀ (t : Nat) (set : RawSet) (k : ArrivalTaking) (s : State) (o : Outstanding),
    k.softReset = none ∨ s.rsq.quiesce = false →
    s.spt.outstanding = some o → max s.now t < o.deadline → parityGood set = true →
    ∃ u, exec (.sampleSetArrival t set k) s = .next u ∧
      u.spt = { lastGood := saturatedSet set, missRun := 0, faultCount := s.spt.faultCount, outstanding := none } ∧
      u.sdu.history = ((saturatedSet set).v :: s.sdu.history).take 128 ∧
      u.cst.history = s.cst.history.drop 1 ++ [⟨(saturatedSet set).v, (saturatedSet set).i⟩] ∧
      u.pru.candidate = s.pru.candidate.set o.index (saturatedSet set).v ∧
      u.pru.run = s.pru.run ∧ u.pru.index = s.pru.index ∧
      u.pins = s.pins ∧ u.now = max s.now t ∧ u.esa = s.esa ∧ u.slc = s.slc ∧ u.rqh = s.rqh ∧ u.cfl = s.cfl) ∧
  (∀ (t : Nat) (set : RawSet) (s : State) (o : Outstanding), s.spt.outstanding = some o →
    max s.now t < o.deadline → parityGood set = true →
    let s1 := detect .afterNo (takeSet o.index (some (saturatedSet set)) (settleDue (s.moveTo t)))
    let s2 := if o.index = 127 then cycleEnd false false s1 else s1
    let s3 := overcurrentTest .afterNo (linkRunTest (serviceTest (injectSet o.index (saturatedSet set) s2)))
    exec (.sampleSetArrival t set {}) s = .next (completeDue (closeWaits .afterNo false s.spt.lastGood.i s3))) ∧
  (∀ s s1 s2 s3 s4 s5 : State, exec .holdoverLimit s = .next s1 →
    exec (.closeWaitTimeout .a .afterNo) s1 = .next s2 → exec (.closeWaitTimeout .b .afterNo) s2 = .next s3 →
    exec (.closeWaitTimeout .c .afterNo) s3 = .next s4 → exec .durationExpiry s4 = .next s5 →
    exec .captureCompletion s5 = .next (settleDue s)) ∧
  (∀ (k : Nat) (good : Option SampleSet) (s : State),
    let set := good.getD s.spt.lastGood
    let judged : Spt := match good with
      | some x => { s.spt with lastGood := x, missRun := 0, outstanding := none }
      | none => { s.spt with
          missRun := satInc s.spt.missRun, faultCount := satInc s.spt.faultCount, outstanding := none }
    takeSet k good s = beginWaits (captureSet set (noteSet k set.v good.isNone (measureSet k set.v
      { s with spt := judged, rsq := { s.rsq with onsetArrival := false } })))) ∧
  (∀ (k : ArrivalTaking) (a : Arrival) (s : State),
    let part := fun (p : ArrivalPart) => arrivalPart k a p s
    (a.sense = true → part .sense = faultTaken k.completion .sense s) ∧ (a.sense = false → part .sense = s) ∧
    part .detect = detect k.completion s ∧
    (a.index = 127 → part .cycleEnd =
      cycleEnd (k.apart.contains .holdoverLimit) (k.apart.contains .durationExpiry) s) ∧
    (a.index ≠ 127 → part .cycleEnd = s) ∧
    part .inject = injectSet a.index s.spt.lastGood s ∧ part .service = serviceTest s ∧
    part .linkRun = linkRunTest s ∧ part .overcurrent = overcurrentTest k.completion s ∧
    part .closeWaits = closeWaits k.completion (k.apart.contains .closeWaitTimeout) a.before s ∧
    (k.completion ≠ .apart → exec .captureCompletion s = .next (part .completion)) ∧
    (k.completion = .apart → part .completion = s)) ∧
  (∀ k : ArrivalTaking, (∀ p, (arrivalOrder k).count p = 1) ∧
    (k.order.Nodup → k.apart.contains .holdoverLimit = false → (arrivalOrder k).take k.order.length = k.order)) ∧
  (∀ (t : Nat) (s : State), s.moveTo t = { s with now := max s.now t })

/-- A set of bad parity, and a deadline that passes, give a missing set: the held set stands in, and both counts
increase and saturate (R3, R4). A set at or after the deadline finds it passed (log 33). Without an outstanding strobe a
set is discarded and a deadline finds nothing. These are arrivals that no soft reset abandons
(`SoftResetKeepsStoreAndNumbers`). Every block then treats the held set as any other (R6): the work on it is that on a
good set (`GoodSetTaken`), with the SENSE fault when it is the fourth missing one in a row (R5). -/
def Obligations.MissingSetHeld : Prop :=
  let held := fun (s u : State) =>
    u.spt = { lastGood := s.spt.lastGood, missRun := satInc s.spt.missRun, faultCount := satInc s.spt.faultCount
              outstanding := none } ∧
    u.sdu.history = (s.spt.lastGood.v :: s.sdu.history).take 128 ∧
    u.cst.history = s.cst.history.drop 1 ++ [⟨s.spt.lastGood.v, s.spt.lastGood.i⟩] ∧
    u.pins = s.pins ∧ u.esa = s.esa ∧ u.slc = s.slc ∧ u.rqh = s.rqh ∧ u.cfl = s.cfl
  (∀ (t : Nat) (set : RawSet) (k : ArrivalTaking) (s : State) (o : Outstanding),
    k.softReset = none ∨ s.rsq.quiesce = false →
    s.spt.outstanding = some o → max s.now t < o.deadline → parityGood set = false →
    ∃ u, exec (.sampleSetArrival t set k) s = .next u ∧ held s u ∧ u.now = max s.now t) ∧
  (∀ (k : ArrivalTaking) (s : State) (o : Outstanding), k.softReset = none ∨ s.rsq.quiesce = false →
    s.spt.outstanding = some o →
    ∃ u, exec (.arrivalDeadline k) s = .next u ∧ held s u ∧ u.now = max s.now o.deadline ∧
      ∀ (t : Nat) (set : RawSet), o.deadline ≤ max s.now t →
        exec (.sampleSetArrival t set k) s = .next { u with now := max u.now t }) ∧
  (∀ s : State, s.spt.outstanding = none →
    (∀ (t : Nat) (set : RawSet) (k : ArrivalTaking),
      exec (.sampleSetArrival t set k) s = .next { s with now := max s.now t }) ∧
    (∀ k : ArrivalTaking, exec (.arrivalDeadline k) s = .next s)) ∧
  (∀ (s : State) (o : Outstanding), s.spt.outstanding = some o →
    let missed := fun (s0 : State) =>
      let s1 := takeSet o.index none (settleDue s0)
      let s2 := detect .afterNo (if s.spt.missRun = 3 then faultTaken .afterNo .sense s1 else s1)
      let s3 := if o.index = 127 then cycleEnd false false s2 else s2
      let s4 := overcurrentTest .afterNo (linkRunTest (serviceTest (injectSet o.index s.spt.lastGood s3)))
      completeDue (closeWaits .afterNo false s.spt.lastGood.i s4)
    exec (.arrivalDeadline {}) s = .next (missed (s.moveTo o.deadline)) ∧
    ∀ (t : Nat) (set : RawSet), max s.now t < o.deadline → parityGood set = false →
      exec (.sampleSetArrival t set {}) s = .next (missed (s.moveTo t))) ∧
  (∀ (t : Nat) (set : RawSet) (k : ArrivalTaking) (s : State) (o : Outstanding), s.spt.outstanding = some o →
    max s.now t < o.deadline → parityGood set = false →
    exec (.sampleSetArrival t set k) s = .next
      (takeParts k { index := o.index, before := s.spt.lastGood.i, sense := s.spt.missRun == 3 } (arrivalOrder k)
        (takeSet o.index none (settleDue (s.moveTo t))))) ∧
  (∀ (w : Nat) (n : BitVec w), (satInc n).toNat = min (2 ^ w - 1) (n.toNat + 1))

/-- Every channel of a saturated set lies within its limits. A channel within them with its flag clear is taken as it
stands, one beyond them takes the nearer limit, and one whose flag is set takes the limit of its word's sign, the upper
one for the link and the bus (R1, R2). A set has good parity when the ones of its eight words, its eight flags and its
parity bit are even in number (R1). -/
def Obligations.SaturationWithinLimits : Prop :=
  let signed := fun (limit : Int) (c : RawChannel) (x : Int) =>
    -limit ≤ x ∧ x ≤ limit ∧
    (c.overRange = true → x = if c.word.toInt < 0 then -limit else limit) ∧
    (c.overRange = false → -limit ≤ c.word.toInt → c.word.toInt ≤ limit → x = c.word.toInt) ∧
    (c.overRange = false → limit < c.word.toInt → x = limit) ∧
    (c.overRange = false → c.word.toInt < -limit → x = -limit)
  let unsigned := fun (limit : Nat) (c : RawChannel) (x : Nat) =>
    x ≤ limit ∧ (c.overRange = true → x = limit) ∧
    (c.overRange = false → c.word.toNat ≤ limit → x = c.word.toNat) ∧
    (c.overRange = false → limit < c.word.toNat → x = limit)
  (∀ raw : RawSet,
    (∀ p : Phase, signed 10000 (raw.v.get p) ((saturatedSet raw).v.get p) ∧
      signed 4000 (raw.i.get p) ((saturatedSet raw).i.get p)) ∧
    unsigned 12000 raw.link (saturatedSet raw).link ∧ unsigned 12000 raw.bus (saturatedSet raw).bus) ∧
  (∀ raw : RawSet,
    let ones := fun (c : RawChannel) =>
      ((List.range 16).filter (fun n => c.word.getLsbD n)).length + (if c.overRange = true then 1 else 0)
    parityGood raw = true ↔
      (ones raw.v.a + ones raw.v.b + ones raw.v.c + ones raw.i.a + ones raw.i.b + ones raw.i.c + ones raw.link +
        ones raw.bus + (if raw.parity = true then 1 else 0)) % 2 = 0)

/-- The sums of squares over 64 and 128 arrivals, the half-cycle RMS and the residual, by the floored square root (R20,
R21); and the two detectors of a phase: the run counts, and the flags by the persistence counts (R22, R23, R25). -/
def Obligations.DetectionOfAnArrival : Prop :=
  (∀ n : Nat, isqrt n * isqrt n ≤ n ∧ n < (isqrt n + 1) * (isqrt n + 1)) ∧
  (∀ (k : Nat) (v : Phases Int) (s : State) (p : Phase),
    let u := measureSet k v s
    u = { s with sdu := u.sdu } ∧
    u.sdu.history = (v :: s.sdu.history).take 128 ∧
    u.sdu.sum64.get p = (((v :: s.sdu.history).take 64).map (fun x => (x.get p).natAbs * (x.get p).natAbs)).sum ∧
    u.sdu.sum128.get p = (((v :: s.sdu.history).take 128).map (fun x => (x.get p).natAbs * (x.get p).natAbs)).sum ∧
    u.sdu.rms.get p = isqrt (u.sdu.sum64.get p / 64) ∧
    u.sdu.residual.get p = min 1500 (1000 * u.sdu.rms.get p / s.settings.vNom) ∧
    u.sdu.detectors.get p =
      detectorAfter s.settings s.pru.ref.valid ((s.pru.ref.samples.getD k (Phases.same 0)).get p) (v.get p) (u.sdu.residual.get p)
        (s.sdu.detectors.get p) ∧
    u.sdu.flags.get p = ((u.sdu.detectors.get p).rmsFlag || (u.sdu.detectors.get p).instFlag) ∧
    u.sdu.prevFlags = s.sdu.flags ∧ u.sdu.record = s.sdu.record ∧ u.sdu.recovery = s.sdu.recovery) ∧
  (∀ (c : Config.Settings) (valid : Bool) (ref v : Int) (r : Nat) (d : Detector),
    c.sagThreshold < c.recoverThreshold →
    let u := detectorAfter c valid ref v r d
    (r < c.sagThreshold → u.belowRun = satInc d.belowRun ∧ u.aboveRun = 0) ∧
    (c.sagThreshold ≤ r → r < c.recoverThreshold → u.belowRun = 0 ∧ u.aboveRun = 0) ∧
    (c.recoverThreshold ≤ r → u.belowRun = 0 ∧ u.aboveRun = satInc d.aboveRun) ∧
    (d.rmsFlag = false → (u.rmsFlag = true ↔ c.rmsPersistence ≤ u.belowRun.toNat)) ∧
    (d.rmsFlag = true → (u.rmsFlag = false ↔ c.recoverPersistence ≤ u.aboveRun.toNat)) ∧
    (valid = false → u.instFlag = false ∧ u.overRun = 0 ∧ u.withinRun = 0) ∧
    (valid = true → c.instThreshold < (ref - v).natAbs → u.overRun = satInc d.overRun ∧ u.withinRun = 0) ∧
    (valid = true → (ref - v).natAbs ≤ c.instThreshold → u.withinRun = satInc d.withinRun ∧ u.overRun = 0) ∧
    (valid = true → d.instFlag = false → (u.instFlag = true ↔ c.instPersistence ≤ u.overRun.toNat)) ∧
    (valid = true → d.instFlag = true → (u.instFlag = false ↔ c.recoverPersistence ≤ u.withinRun.toNat)))

/-- The notes that PRU takes of a set, with the crossing and its position (R9, R10, R16, R17; log 27); which cycle is
good (R10); and the correction of frequency and phase at a cycle end, the estimate within nominal ±5% (R11). A good
cycle that reaches the holdover limit is corrected like any other: the model's choice between R8's last sentence and R11
(log 38). -/
def Obligations.FrequencyCorrectionInBand : Prop :=
  (∀ n d : Int, 0 < d → 2 * |roundDiv n d * d - n| ≤ d ∧ (2 * |roundDiv n d * d - n| = d → |n| < |roundDiv n d * d|)) ∧
  (∀ (k : Nat) (before v : Int), k < 128 → before < 0 → 0 ≤ v →
    let d0 := roundDiv (16 * (k * (v - before) - v)) (v - before)
    crossingD k before v = (if d0 ≤ 1023 then d0 else d0 - 2048) ∧
    -1024 ≤ crossingD k before v ∧ crossingD k before v ≤ 1023) ∧
  (∀ (k : Nat) (v : Phases Int) (missing : Bool) (s : State),
    let c := if k = 0 then Cycle.start else s.pru.cycle
    let u := noteSet k v missing s
    let n := u.pru.cycle
    u = { s with pru := { s.pru with
      cycle := n, candidate := s.pru.candidate.set k v, prevVA := some v.a } } ∧
    (∀ b, s.pru.prevVA = some b → b < 0 → 0 ≤ v.a →
      n.crossings = c.crossings + 1 ∧ n.firstD = some (c.firstD.getD (crossingD k b v.a))) ∧
    (s.pru.prevVA = none ∨ (∃ b, s.pru.prevVA = some b ∧ 0 ≤ b) ∨ v.a < 0 →
      n.crossings = c.crossings ∧ n.firstD = c.firstD) ∧
    (n.lowA = true ↔ c.lowA = true ∨ s.sdu.residual.a < 500) ∧
    (n.missing = true ↔ c.missing = true ∨ missing = true) ∧
    (n.unhealthy = true ↔ c.unhealthy = true ∨
      ∃ p, s.sdu.flags.get p = true ∨ s.sdu.residual.get p < 900 ∨ 1100 < s.sdu.residual.get p) ∧
    n.eventEnded = s.pru.cycle.eventEnded) ∧
  (∀ s : State, cycleGood s = true ↔
    s.pru.cycle.crossings = 1 ∧ s.pru.cycle.lowA = false ∧ s.pru.cycle.missing = false ∧
    ∃ d, s.pru.cycle.firstD = some d ∧ d.natAbs ≤ 32 ∧ correctionClamped s.settings.fNom s.pru.fEst d = false) ∧
  (∀ (apart : Bool) (s : State), eventActive s = false →
    let c := s.pru.cycle
    let four := c.crossings = 1 ∧ c.lowA = false ∧ c.missing = false ∧ ∃ d, c.firstD = some d ∧ d.natAbs ≤ 32
    let u := cycleEndPru apart s
    (∀ d, c.firstD = some d → (s.pru.lock = .acquire ∨ four) →
      u.fEst = correctedF s.settings.fNom s.pru.fEst d ∧ u.dc = d) ∧
    (c.firstD = none ∨ (s.pru.lock ≠ .acquire ∧ ¬ four) → u.fEst = s.pru.fEst ∧ u.dc = 0)) ∧
  (∀ (fNom fEst : Nat) (d : Int),
    let stepped := (fEst : Int) - Int.tdiv (fEst * d) 16384
    bandLow fNom ≤ correctedF fNom fEst d ∧ correctedF fNom fEst d ≤ bandHigh fNom ∧
    (bandLow fNom ≤ stepped → stepped ≤ bandHigh fNom →
      correctedF fNom fEst d = stepped ∧ correctionClamped fNom fEst d = false) ∧
    (stepped < bandLow fNom → correctedF fNom fEst d = bandLow fNom ∧ correctionClamped fNom fEst d = true) ∧
    (bandHigh fNom < stepped → correctedF fNom fEst d = bandHigh fNom ∧ correctionClamped fNom fEst d = true)) ∧
  bandLow 50 = 47500 ∧ bandHigh 50 = 52500 ∧ bandLow 60 = 57000 ∧ bandHigh 60 = 63000

/-- The lock states. At a cycle end outside an event the good-cycle and holdover counts and the lock state move as R12
states, the stored cycle is refreshed or grows one cycle older (R16, R17; log 27), the cycle is counted and the change
is handed to RSQ (R15, R111, R112, R127). During an event PRU is frozen (R14), the cycle ends are counted by RSQ all the
same (R127) and by EVC, and a limit that the count has reached takes an injecting restorer to RELEASE with cause
DURATION, or marks the expiry as due where the operand leaves it to DURATION_EXPIRY (R86, R119; log 5). The entry to
ACQUIRE at the holdover limit (R13) is made by the cycle end, or by HOLDOVER_LIMIT when it is left to it; the cycle end
is then the last work on its arrival (log 5). HOLDOVER_LIMIT keeps f_est and the stored cycle; frozen (R14), in another
lock state or below the limit it finds nothing to do (log 25). -/
def Obligations.HoldoverLimitEntersAcquire : Prop :=
  (∀ s : State, s.pru.lock = .holdover → s.settings.holdoverLimit ≤ s.pru.holdoverCount → eventActive s = false →
    exec .holdoverLimit s = .next
      { s with
        pru := { s.pru with lock := .acquire, goodCount := 0, holdoverCount := 0
                            ref := { s.pru.ref with valid := false } }
        rsq := { s.rsq with state := if s.rsq.state = .ready then .charge else s.rsq.state } }) ∧
  (∀ s : State,
    s.pru.lock ≠ .holdover ∨ s.pru.holdoverCount < s.settings.holdoverLimit ∨ eventActive s = true →
    exec .holdoverLimit s = .next s) ∧
  (∀ k : ArrivalTaking, k.apart.contains .holdoverLimit = true →
    (arrivalOrder k).getLast? = some .cycleEnd ∧ (arrivalOrder k).count .cycleEnd = 1) ∧
  (∀ (apart : Bool) (s : State), eventActive s = true →
    cycleEndPru apart s = { s.pru with dc := 0, ref := { s.pru.ref with age := satInc s.pru.ref.age } }) ∧
  (∀ (apart : Bool) (s : State), eventActive s = false →
    let good := cycleGood s
    let n := if good = true then satInc s.pru.goodCount else 0
    let h := s.pru.holdoverCount
    let healthy := s.pru.cycle.unhealthy = false ∧ s.pru.cycle.missing = false ∧ s.pru.cycle.eventEnded = false
    let u := cycleEndPru apart s
    u = { s.pru with
      lock := u.lock, goodCount := u.goodCount, holdoverCount := u.holdoverCount, fEst := u.fEst, dc := u.dc
      ref := u.ref } ∧
    (s.pru.lock = .acquire → u.goodCount = n ∧ u.holdoverCount = h ∧
      (16 ≤ n.toNat → u.lock = .locked) ∧ (n.toNat < 16 → u.lock = .acquire)) ∧
    (s.pru.lock = .locked → u.goodCount = n ∧ (good = true → u.lock = .locked ∧ u.holdoverCount = h) ∧
      (good = false → u.lock = .holdover ∧ u.holdoverCount = 0)) ∧
    (s.pru.lock = .holdover →
      (16 ≤ n.toNat → u.lock = .locked ∧ u.goodCount = n ∧ u.holdoverCount = 0) ∧
      (n.toNat < 16 → h + 1 < s.settings.holdoverLimit →
        u.lock = .holdover ∧ u.goodCount = n ∧ u.holdoverCount = h + 1) ∧
      (n.toNat < 16 → s.settings.holdoverLimit ≤ h + 1 → apart = false →
        u.lock = .acquire ∧ u.goodCount = 0 ∧ u.holdoverCount = 0) ∧
      (n.toNat < 16 → s.settings.holdoverLimit ≤ h + 1 → apart = true →
        u.lock = .holdover ∧ u.goodCount = n ∧ u.holdoverCount = h + 1)) ∧
    (u.lock = .locked ∧ healthy → u.ref =
      { samples := s.pru.candidate, rms := s.sdu.sum128.map (fun x => isqrt (x / 128)), age := 0, valid := true }) ∧
    (¬ (u.lock = .locked ∧ healthy) → u.ref =
      { s.pru.ref with
        age := satInc s.pru.ref.age
        valid := s.pru.ref.valid && !decide (s.pru.lock = .holdover ∧ u.lock = .acquire) })) ∧
  (∀ (apart expiry : Bool) (s : State), eventActive s = false →
    let lock := (cycleEndPru apart s).lock
    let u := cycleEnd apart expiry s
    u = { s with
      pru := cycleEndPru apart s
      rsq := { s.rsq with cycleCount := s.rsq.cycleCount + 1, state := u.rsq.state } } ∧
    (lock = s.pru.lock → u.rsq.state = s.rsq.state) ∧
    (lock = .acquire → s.pru.lock ≠ .acquire →
      u.rsq.state = if s.rsq.state = .ready then .charge else s.rsq.state) ∧
    (lock ≠ .acquire → lock ≠ s.pru.lock → u.rsq.state =
      if s.rsq.state = .charge ∧ s.settings.linkReady ≤ s.spt.lastGood.link ∧ lock = .locked ∧ onLine s = true
      then .ready else s.rsq.state)) ∧
  (∀ (apart expiry : Bool) (s : State), eventActive s = true →
    let n := satInc s.evc.cycles
    let reached := s.rsq.state = .inject ∧ ∃ limit, s.evc.limit = some limit ∧ limit ≤ n.toNat
    let counted : State := { s with
      pru := { s.pru with dc := 0, ref := { s.pru.ref with age := satInc s.pru.ref.age } }
      evc := { s.evc with cycles := n }
      rsq := { s.rsq with cycleCount := s.rsq.cycleCount + 1 } }
    let u := cycleEnd apart expiry s
    n.toNat = min 65535 (s.evc.cycles.toNat + 1) ∧
    (¬ reached → u = counted) ∧
    (reached → expiry = false → u = { counted with
      rsq := { counted.rsq with state := .release, endCause := .duration, rampDone := false }
      inc := { s.inc with rampCount := 0 } }) ∧
    (reached → expiry = true → u = { counted with evc := { counted.evc with expiryDue := true } })) ∧
  (∀ (t : Nat) (set : RawSet) (s : State) (o : Outstanding), s.spt.outstanding = some o →
    max s.now t < o.deadline → parityGood set = true → s.rsq.state = .off →
    let s1 := takeSet o.index (some (saturatedSet set)) (settleDue (s.moveTo t))
    ∃ u, exec (.sampleSetArrival t set {}) s = .next u ∧
      (o.index = 127 → u.pru = cycleEndPru false s1) ∧ (o.index ≠ 127 → u.pru = s1.pru)) ∧
  (∀ s : State, onLine s = true ↔ s.slc.membership = .member ∨ s.slc.membership = .mute)

/-- The fourth consecutive missing set takes a restorer out of OFF to LOCKOUT with its outputs off, in every order of
taking (R5, R129, R130), on an arrival that no soft reset abandons (`SoftResetKeepsStoreAndNumbers`). The fault taken
ends an active event with its cause, as every end does (`FaultInputsTakeToLockout`), takes CHARGE and READY to LOCKOUT
alone, and changes nothing in OFF and LOCKOUT (R124, R128). -/
def Obligations.SenseFaultLocksOut : Prop :=
  (∀ (k : ArrivalTaking) (s : State) (o : Outstanding), k.softReset = none ∨ s.rsq.quiesce = false →
    s.spt.outstanding = some o → s.spt.missRun = 3 →
    s.rsq.state ≠ .off → s.pins.enable = true → OutputsAgree s →
    ∃ u, exec (.arrivalDeadline k) s = .next u ∧ u.rsq.state = .lockout ∧ u.rsq.bridge = false ∧
      u.rsq.bypassOpen = Phases.same false ∧ u.inc.port = Phases.same 0) ∧
  (∀ (k : CompletionTaking) (s : State),
    (eventActive s = true → faultTaken k .sense s = handEnd k { s with
      rsq := { s.rsq with
        state := .lockout, bridge := false, bypassOpen := Phases.same false, waits := Phases.same none
        endCause := .sense, lastEndCause := .sense } }) ∧
    (s.rsq.state = .charge ∨ s.rsq.state = .ready →
      faultTaken k .sense s = { s with rsq := { s.rsq with state := .lockout } }) ∧
    (s.rsq.state = .off ∨ s.rsq.state = .lockout → faultTaken k .sense s = s))

/-- CST's work on a set, which every arrival does (log 6): the history, the set's twelve bytes at the written-set
position of the slot in fill, the last one included, and no other byte; a set that finds the slot full is not written,
and it truncates a capture whose event goes on; the tail, duration and queue counts (R137, R140, R141, R142, R145, R148;
log 23). An arrival in OFF that no soft reset abandons leaves the store so, and files the record of a capture that the
set makes due (R142, R143; log 5). -/
def Obligations.ArrivalWritesItsPosition : Prop :=
  (∀ (k : Nat) (good : Option SampleSet) (s : State),
    (takeSet k good s).cst = (captureSet (judge good s.spt).lastGood s).cst) ∧
  (∀ (set : SampleSet) (s : State),
    let u := captureSet set s
    u = { s with cst := u.cst } ∧
    u.cst = { s.cst with
      mem := u.cst.mem, filling := u.cst.filling, queued := u.cst.queued
      history := s.cst.history.drop 1 ++ [⟨set.v, set.i⟩] } ∧
    (s.cst.queued = none → u.cst.queued = none) ∧
    (∀ q, s.cst.queued = some q → u.cst.queued = some
      { making := { q.making with
          duration := if q.making.ended = none then satInc q.making.duration else q.making.duration }
        atOnset := false }) ∧
    (s.cst.filling = none → u.cst.mem = s.cst.mem ∧ u.cst.filling = none) ∧
    (∀ l f, s.cst.layout = some l → s.cst.filling = some f →
      let room := decide (f.written < l.sets)
      let live := !f.test && f.making.ended.isNone
      u.cst.filling = some
        { f with
          written := if room = true then f.written + 1 else f.written
          tail := f.tail.map (fun n => n + 1)
          truncated := f.truncated || (live && !room)
          making := { f.making with
            duration := if live = true then satInc f.making.duration else f.making.duration } } ∧
      (room = false → u.cst.mem = s.cst.mem) ∧
      (room = true → MemoryCanonical s →
        (∀ n : Fin 12, Memory.read u.cst.mem (setAddr l s.cst.fill f.written + n) =
          (setBytes ⟨set.v, set.i⟩).getD n 0) ∧
        (∀ a, a < setAddr l s.cst.fill f.written ∨ setAddr l s.cst.fill f.written + 12 ≤ a →
          Memory.read u.cst.mem a = Memory.read s.cst.mem a)))) ∧
  (∀ (t : Nat) (set : RawSet) (k : ArrivalTaking) (s : State) (o : Outstanding),
    k.softReset = none ∨ s.rsq.quiesce = false →
    s.spt.outstanding = some o → max s.now t < o.deadline → parityGood set = true → s.rsq.state = .off →
    captureDue s = false →
    let w := captureSet (saturatedSet set) s
    ∃ u, exec (.sampleSetArrival t set k) s = .next u ∧
      (captureDue w = false → u.cst = w.cst) ∧
      (captureDue w = true → k.completion = .apart → u.cst = w.cst) ∧
      (∀ l, s.cst.layout = some l → captureDue w = true → k.completion ≠ .apart → s.cst.queued = none →
        u.cst.filling = none ∧ u.cst.full = s.cst.full + 1 ∧ u.cst.fill = (s.cst.fill + 1) % l.slots))

/-! The restorer. -/

/-- ENABLE_ASSERTED takes OFF to CHARGE, or on to LOCKOUT with a fault input active, once the settings are in force with
valid straps (R110, R128); ENABLE_DEASSERTED acts by the restorer's state (R112, R121, R130); nothing else changes. -/
def Obligations.EnableInputByState : Prop :=
  (∀ (t : Nat) (s : State),
    exec (.enableAsserted t) s = .next
      { s with
        now := max s.now t
        pins := { s.pins with enable := true }
        rsq := { s.rsq with
          state :=
            if s.rsq.state = .off ∧ s.cfl.source ≠ .loading ∧ (ownSlot s).isSome = true then
              (if faultActive s = true then .lockout else .charge)
            else s.rsq.state } }) ∧
  (∀ (t : Nat) (s : State),
    let s' := { s with now := max s.now t, pins := { s.pins with enable := false } }
    ((s.rsq.state = .charge ∨ s.rsq.state = .ready) →
      exec (.enableDeasserted t) s = .next { s' with rsq := { s.rsq with state := .off } }) ∧
    (s.rsq.state = .inject →
      exec (.enableDeasserted t) s = .next
        { s' with
          rsq := { s.rsq with state := .release, endCause := .disabled, rampDone := false }
          inc := { s.inc with rampCount := 0 } }) ∧
    ((s.rsq.state = .off ∨ s.rsq.state = .release ∨ s.rsq.state = .lockout) →
      exec (.enableDeasserted t) s = .next s'))

/-- FAULT_INPUT_ACTIVE: LOCKOUT from CHARGE, READY, INJECT and RELEASE, an active event ended with cause FAULT and the
outputs off; nothing but the input in OFF and LOCKOUT or while another input is active (R101, R124, R128, R130).
FAULT_INPUT_CLEARED changes the input alone (R131). An event's end, of every cause, at the other blocks: EVC classifies
it if the window is open and reverts the override (R77, R84); its capture, in fill or queued, takes what is handed, and
the one in fill begins its post tail; a capture "no" found there releases it (R87, R106, R142, R144, R146). A completion
due there is taken before or after the "no", or left to CAPTURE_COMPLETION (log 7). A fault input is active while any
DESAT or OVERTEMP is (R128), and an event in INJECT and RELEASE. -/
def Obligations.FaultInputsTakeToLockout : Prop :=
  (∀ (t : Nat) (f : FaultInput) (k : CompletionTaking) (s : State),
    let s' := { s with now := max s.now t, pins := s.pins.setFault f true }
    (faultActive s = false → eventActive s = true →
      ∃ u, exec (.faultInputActive t f k) s = .next u ∧
        u = { s' with
          rsq := { s.rsq with
            state := .lockout, bridge := false, bypassOpen := Phases.same false, waits := Phases.same none
            endCause := .fault, lastEndCause := .fault }
          inc := { s.inc with port := Phases.same 0 }
          sdu := { s.sdu with record := { s.sdu.record with isOpen := false } }
          pru := { s.pru with cycle := { s.pru.cycle with eventEnded := true } }
          evc := u.evc
          cst := u.cst } ∧
        u = handEnd k { s' with
          rsq := { s.rsq with
            state := .lockout, bridge := false, bypassOpen := Phases.same false, waits := Phases.same none
            endCause := .fault, lastEndCause := .fault } }) ∧
    (faultActive s = false → (s.rsq.state = .charge ∨ s.rsq.state = .ready) →
      exec (.faultInputActive t f k) s = .next { s' with rsq := { s.rsq with state := .lockout } }) ∧
    (faultActive s = true ∨ s.rsq.state = .off ∨ s.rsq.state = .lockout →
      exec (.faultInputActive t f k) s = .next s')) ∧
  (∀ (t : Nat) (f : FaultInput) (s : State),
    exec (.faultInputCleared t f) s = .next { s with now := max s.now t, pins := s.pins.setFault f false }) ∧
  (∀ (p : Phase) (b : Bool) (i : Pins),
    (i.setFault (.desat p) b).desat.get p = b ∧ (i.setFault (.desat p) b).overtemp = i.overtemp ∧
    (∀ q, q ≠ p → (i.setFault (.desat p) b).desat.get q = i.desat.get q) ∧
    i.setFault .overtemp b = { i with overtemp := b }) ∧
  (∀ (k : CompletionTaking) (s : State),
    let cls := if s.settings.k ≤ s.evc.coincidence then EventClass.grid else .localOnly
    let no := s.evc.window = true ∧ ∃ n e, searchTable cls s = some (n, e) ∧ e.capture = false
    let handed : EndFields :=
      { frameNumber := s.slc.frameNumber, position := framePosition s, energy := joules s, lowest := s.inc.lowest
        method := s.inc.method, limited := s.inc.limited, cause := s.rsq.endCause, resag := s.rsq.resag }
    let own := fun (m : Making) => m.onset.event = s.rsq.event ∧ m.ended = none
    let u := handEnd k s
    u = { s with
      inc := { s.inc with port := Phases.same 0 }
      sdu := { s.sdu with record := { s.sdu.record with isOpen := false } }
      pru := { s.pru with cycle := { s.pru.cycle with eventEnded := true } }
      evc := u.evc
      cst := u.cst } ∧
    (s.evc.window = false → u.evc = { s.evc with override := none, expiryDue := false }) ∧
    (s.evc.window = true → u.evc = { s.evc with
      eventClass := cls, window := false, matched := (searchTable cls s).map Prod.fst, override := none
      expiryDue := false }) ∧
    (k = .apart →
      u.cst = { s.cst with filling := u.cst.filling, queued := u.cst.queued } ∧
      (s.cst.filling = none → u.cst.filling = none) ∧ (s.cst.queued = none → u.cst.queued = none) ∧
      (∀ c, s.cst.filling = some c → c.test = false → own c.making →
        (¬ no → u.cst.filling = some { c with making := { c.making with ended := some handed }, tail := some 0 }) ∧
        (no → u.cst.filling = none)) ∧
      (∀ c, s.cst.filling = some c → c.test = true ∨ c.making.onset.event ≠ s.rsq.event →
        u.cst.filling = some c) ∧
      (∀ q, s.cst.queued = some q → own q.making →
        (¬ no → u.cst.queued = some { q with making := { q.making with ended := some handed } }) ∧
        (no → u.cst.queued = none)) ∧
      (∀ q, s.cst.queued = some q → q.making.onset.event ≠ s.rsq.event → u.cst.queued = some q)) ∧
    exec .captureCompletion (handEnd .apart s) = .next (handEnd .afterNo s) ∧
    (¬ no → handEnd .beforeNo s = handEnd .afterNo s) ∧
    (∀ l c, no → s.cst.layout = some l → s.cst.filling = some c → c.test = false → own c.making →
      s.cst.queued = none → (l.sets ≤ c.written ∨ (s.settings.postTail = 0 ∧ c.written % 128 = 0)) →
      (handEnd .beforeNo s).cst.full = s.cst.full + 1 ∧ (handEnd .beforeNo s).cst.filling = none)) ∧
  (∀ s : State, (faultActive s = true ↔ (∃ p, s.pins.desat.get p = true) ∨ s.pins.overtemp = true) ∧
    (eventActive s = true ↔ s.rsq.state = .inject ∨ s.rsq.state = .release))

/-- An onset met with a last budget above 0 gets a number, opens the bypasses, turns the bridge on and enters INJECT,
with the marks, INC's values and the window as the rules give them; the sample path, the line and the requests are
untouched (R28, R67, R68, R74, R90, R99, R101, R113, R115, R116). With k = 0 the event is GRID at once and the action
found is applied there (R87; `ActionOfAnEntry`). The number is one more than the last, and 1 after 4,294,967,295 (R115).
What CST does at the onset is in `CaptureOpensAtOnset`. The set that brings the onset reaches it through
SAMPLE_SET_ARRIVAL, in the order taken when the operand names none. -/
def Obligations.OnsetTaken : Prop :=
  (∀ (k : CompletionTaking) (s : State), onsetHere s = true → 0 < s.esa.budget →
    let u := detect k s
    let injecting : State := { takeClassFields s with
      rsq := { s.rsq with
        state := .inject, bypassOpen := Phases.same true, bridge := true, waits := Phases.same none
        rampDone := false, linkLow := 0, overRun := 0, endCause := .none, resag := false
        eventCounter := nextEvent s.rsq.eventCounter, event := nextEvent s.rsq.eventCounter, onsetArrival := true }
      inc := { s.inc with
        method := if fresh s then .presag else .inphase
        limited := false, energy := 0, lowest := 32768, ratio := 32768, ramp := 32768, rampCount := 0, pDem := 0
        nDem := 0, port := Phases.same 0 }
      sdu := { s.sdu with
        record := { isOpen := true, onsetMask := s.sdu.flags, sinceMask := s.sdu.flags, rMin := s.sdu.residual }
        recovery := 0 }
      evc := { s.evc with
        eventClass := .pending, window := true, windowCount := 0, coincidence := 0, matched := none, override := none
        limit := none, cycles := 0, withdrawn := false, stale := false, expiryDue := false } }
    let opened := captureOnset injecting
    let found := searchTable .grid injecting
    (s.settings.k ≠ 0 → u = opened) ∧ opened = { injecting with cst := opened.cst } ∧
    injecting = { s with
      rsq := injecting.rsq, inc := injecting.inc, sdu := injecting.sdu, evc := injecting.evc, cst := injecting.cst } ∧
    (s.settings.k = 0 → u = applyAction false false (found.map Prod.snd) { opened with evc := { opened.evc with
      eventClass := .grid, window := false, matched := found.map Prod.fst } })) ∧
  (∀ (k : CompletionTaking) (s : State), onsetHere s = true → 0 < s.esa.budget → s.settings.k = 0 →
    let u := detect k s
    u.evc.eventClass = .grid ∧ u.evc.window = false ∧ u.rsq.eventCounter = nextEvent s.rsq.eventCounter ∧
    u.rsq.bridge = true ∧ u.rsq.bypassOpen = Phases.same true ∧
    (u.evc.withdrawn = false → u.rsq.state = .inject) ∧ (u.evc.withdrawn = true → u.rsq.state = .release)) ∧
  (∀ (t : Nat) (set : RawSet) (s : State) (o : Outstanding), s.spt.outstanding = some o →
    max s.now t < o.deadline → parityGood set = true →
    let s1 := takeSet o.index (some (saturatedSet set)) (settleDue (s.moveTo t))
    onsetHere s1 = true → 0 < s.esa.budget → s.settings.k ≠ 0 →
    ∃ u, exec (.sampleSetArrival t set {}) s = .next u ∧ u.rsq.state = .inject ∧ u.rsq.bridge = true ∧
      u.rsq.bypassOpen = Phases.same true ∧ u.rsq.eventCounter = nextEvent s.rsq.eventCounter ∧
      u.inc.port = Phases.same 0 ∧ u.evc.window = true) ∧
  (∀ n : Word, n ≠ 0xFFFFFFFF#32 → (nextEvent n).toNat = n.toNat + 1) ∧ nextEvent 0xFFFFFFFF#32 = 1

/-- An onset met with a last budget of 0 is refused: it gets a number and cause EXHAUSTED, the restorer stays in READY
with its outputs as they are, and the record closes with the onset's contents (R28, R74, R90, R114, R115). What makes an
arrival an onset (R26), and a reference fresh (R18). The count of cycle ends returns to 0 here too (R86; log 19,
DEDUCED). The withdrawal mark and the duration limit stand: the model's choice (log 37). -/
def Obligations.OnsetRefused : Prop :=
  (∀ s : State, onsetHere s = true ↔
    s.rsq.state = .ready ∧ (∃ p, s.sdu.flags.get p = true) ∧ ∀ p, s.sdu.prevFlags.get p = false) ∧
  (∀ s : State, fresh s = true ↔ s.pru.ref.valid = true ∧ s.pru.ref.age.toNat ≤ s.settings.refAgeLimit) ∧
  ∀ (k : CompletionTaking) (s : State), onsetHere s = true → s.esa.budget = 0 →
    let u := detect k s
    u.rsq = { s.rsq with
      eventCounter := nextEvent s.rsq.eventCounter, event := nextEvent s.rsq.eventCounter, onsetArrival := true
      endCause := .exhausted, lastEndCause := .exhausted, resag := false } ∧
    u.inc = { s.inc with
      method := if fresh s then .presag else .inphase
      limited := false, energy := 0, lowest := 32768, port := Phases.same 0 } ∧
    u.sdu.record = { isOpen := false, onsetMask := s.sdu.flags, sinceMask := s.sdu.flags, rMin := s.sdu.residual } ∧
    u.evc.eventClass = .pending ∧ u.evc.window = false ∧ u.evc.coincidence = 0 ∧ u.evc.matched = none ∧
    u.evc.stale = false ∧ u.evc.cycles = 0 ∧ u.evc.withdrawn = s.evc.withdrawn ∧ u.evc.limit = s.evc.limit ∧
    u.spt = s.spt ∧ u.esa = s.esa ∧ u.slc = s.slc ∧ u.rqh = s.rqh ∧ u.cfl = s.cfl ∧ u.pins = s.pins

/-- A re-sag, an arrival in RELEASE at which a phase is newly flagged (R27), returns a restorer that is neither
withdrawn nor disabled to INJECT within the same event; a refused one leaves it in RELEASE (R99, R118, R125). The open
record takes the arrival's flags and residuals (R28). -/
def Obligations.ResagReturnsToInject : Prop :=
  (∀ s : State, resagHere s = true ↔
    s.rsq.state = .release ∧ ∃ p, s.sdu.flags.get p = true ∧ s.sdu.prevFlags.get p = false) ∧
  ∀ (k : CompletionTaking) (s : State), resagHere s = true →
    let u := detect k s
    u = { s with rsq := u.rsq, inc := u.inc, sdu := u.sdu } ∧
    u.sdu = { s.sdu with
      recovery := 0
      record := if s.sdu.record.isOpen = true then
          { s.sdu.record with
            sinceMask := s.sdu.record.sinceMask.join s.sdu.flags
            rMin := Phases.map2 min s.sdu.record.rMin s.sdu.residual }
        else s.sdu.record } ∧ u.rsq.linkLow = 0 ∧ u.rsq.event = s.rsq.event ∧ u.rsq.endCause = s.rsq.endCause ∧
    u.rsq.eventCounter = s.rsq.eventCounter ∧ u.rsq.overRun = s.rsq.overRun ∧ u.rsq.bridge = s.rsq.bridge ∧
    u.inc.ratio = s.inc.ratio ∧ u.inc.method = s.inc.method ∧ u.evc = s.evc ∧ u.cst = s.cst ∧
    (s.evc.withdrawn = false → s.pins.enable = true →
      u.rsq.state = .inject ∧ u.rsq.bypassOpen = Phases.same true ∧ u.rsq.waits = Phases.same none ∧
      u.rsq.resag = true ∧ u.inc.ramp = 32768 ∧ u.inc.rampCount = 0) ∧
    (s.evc.withdrawn = true ∨ s.pins.enable = false →
      u.rsq.state = .release ∧ u.rsq.bypassOpen = s.rsq.bypassOpen ∧ u.rsq.waits = s.rsq.waits ∧
      u.rsq.resag = s.rsq.resag ∧ u.inc = s.inc)

/-- A second consecutive set over I_trip ends the event with cause OVERCURRENT and all outputs off, records the end, and
enters LOCKOUT when three ends lie within 500 cycles, else the state of R124 (R124, R126, R127). The end reaches the
other blocks as every end does (`FaultInputsTakeToLockout`). A first set over I_trip makes the run 1, a set not over it
makes it 0, and outside an event or on the onset arrival nothing is counted (R126). -/
def Obligations.OvercurrentEndsEvent : Prop :=
  (∀ (k : CompletionTaking) (s : State), eventActive s = true → s.rsq.onsetArrival = false → s.rsq.overRun = 1 →
    (∃ p : Phase, s.settings.iTrip < (s.spt.lastGood.i.get p).natAbs) →
    let u := overcurrentTest k s
    let ends := addOverEnd s.rsq.overEnds s.rsq.cycleCount
    u = handEnd k { s with rsq := { s.rsq with
      state := u.rsq.state, bridge := false, bypassOpen := Phases.same false, waits := Phases.same none, overRun := 2
      endCause := .overcurrent, lastEndCause := .overcurrent, overEnds := ends
      overEndCount := satInc s.rsq.overEndCount } } ∧
    u.rsq.bridge = false ∧ u.rsq.bypassOpen = Phases.same false ∧ u.rsq.waits = Phases.same none ∧
    u.rsq.endCause = .overcurrent ∧ u.rsq.lastEndCause = .overcurrent ∧ u.rsq.overEnds = ends ∧
    u.rsq.overEndCount = satInc s.rsq.overEndCount ∧ u.inc.port = Phases.same 0 ∧ u.sdu.record.isOpen = false ∧
    (callsLockout ends = true → u.rsq.state = .lockout) ∧
    (callsLockout ends = false → s.pins.enable = false → u.rsq.state = .off) ∧
    (callsLockout ends = false → s.pins.enable = true → s.settings.linkReady ≤ s.spt.lastGood.link →
      u.rsq.state = .ready) ∧
    (callsLockout ends = false → s.pins.enable = true → s.spt.lastGood.link < s.settings.linkReady →
      u.rsq.state = .charge)) ∧
  (∀ (k : CompletionTaking) (s : State),
    (eventActive s = true → s.rsq.onsetArrival = false → s.rsq.overRun = 0 →
      (∃ p : Phase, s.settings.iTrip < (s.spt.lastGood.i.get p).natAbs) →
      overcurrentTest k s = { s with rsq := { s.rsq with overRun := 1 } }) ∧
    (eventActive s = true → s.rsq.onsetArrival = false →
      (∀ p : Phase, (s.spt.lastGood.i.get p).natAbs ≤ s.settings.iTrip) →
      overcurrentTest k s = { s with rsq := { s.rsq with overRun := 0 } }) ∧
    (eventActive s = false ∨ s.rsq.onsetArrival = true → overcurrentTest k s = s)) ∧
  (∀ c : Word, addOverEnd [] c = [c] ∧ callsLockout [c] = false) ∧
  (∀ a b : Word, addOverEnd [a] b = [a, b] ∧ callsLockout [a, b] = false) ∧
  (∀ a b c : Word, addOverEnd [a, b] c = [a, b, c] ∧
    (callsLockout [a, b, c] = true ↔ (c - a).toNat ≤ 500)) ∧
  (∀ a b c d : Word, addOverEnd [a, b, c] d = [b, c, d])

/-- CLOSE_WAIT_TIMEOUT closes the phase's bypass after 64 arrivals; closing the last one ends the event in the release
target (R123, R124), and the end reaches the other blocks as every end does (`FaultInputsTakeToLockout`). With no wait
of 64 arrivals on the phase nothing happens (log 25). At an arrival in RELEASE with the ramp at 0 the waits of the open
bypasses begin at 0 (R122); each counts the arrival, and closes its bypass at a sign change of the current or at 64,
unless the operand leaves that to CLOSE_WAIT_TIMEOUT (R123; log 5). -/
def Obligations.CloseWaitTimeoutCloses : Prop :=
  (∀ (p : Phase) (k : CompletionTaking) (s : State) (n : Nat), s.rsq.state = .release →
    s.rsq.waits.get p = some n → 64 ≤ n → s.rsq.bypassOpen.get p = true →
    ((s.rsq.bypassOpen.set p false).any = true →
      exec (.closeWaitTimeout p k) s = .next
        { s with rsq := { s.rsq with
            bypassOpen := s.rsq.bypassOpen.set p false, waits := s.rsq.waits.set p none } }) ∧
    ((s.rsq.bypassOpen.set p false).any = false →
      ∃ u, exec (.closeWaitTimeout p k) s = .next u ∧
        u = { s with
          rsq := { s.rsq with
            bridge := false, bypassOpen := Phases.same false, waits := Phases.same none
            lastEndCause := s.rsq.endCause
            state := if s.pins.enable = false then .off
              else if s.settings.linkReady ≤ s.spt.lastGood.link then .ready else .charge }
          inc := { s.inc with port := Phases.same 0 }
          sdu := { s.sdu with record := { s.sdu.record with isOpen := false } }
          pru := { s.pru with cycle := { s.pru.cycle with eventEnded := true } }
          evc := u.evc
          cst := u.cst } ∧
        u = handEnd k { s with rsq := u.rsq })) ∧
  (∀ (p : Phase) (k : CompletionTaking) (s : State),
    s.rsq.state ≠ .release ∨ s.rsq.waits.get p = none ∨ (∃ n, s.rsq.waits.get p = some n ∧ n < 64) →
    exec (.closeWaitTimeout p k) s = .next s) ∧
  (∀ (n : Nat) (good : Option SampleSet) (s : State),
    let waits := (takeSet n good s).rsq.waits
    (takeSet n good s).rsq = { s.rsq with onsetArrival := false, waits := waits } ∧
    (s.rsq.state ≠ .release ∨ s.rsq.rampDone = false → waits = s.rsq.waits) ∧
    (s.rsq.state = .release → s.rsq.rampDone = true → ∀ p, waits.get p =
      if s.rsq.bypassOpen.get p = true ∧ s.rsq.waits.get p = none then some 0 else s.rsq.waits.get p)) ∧
  (∀ (k : CompletionTaking) (apart : Bool) (before : Phases Int) (s : State), s.rsq.state = .release →
    let closes := fun (p : Phase) => ∃ n, s.rsq.waits.get p = some n ∧
      (before.get p * s.spt.lastGood.i.get p ≤ 0 ∨ (apart = false ∧ 64 ≤ n + 1))
    let u := closeWaits k apart before s
    ((∀ p, s.rsq.bypassOpen.get p = false) ∨ (∃ p, s.rsq.bypassOpen.get p = true ∧ ¬ closes p) →
      u = { s with rsq := { s.rsq with bypassOpen := u.rsq.bypassOpen, waits := u.rsq.waits } } ∧
      ∀ p, (closes p → u.rsq.bypassOpen.get p = false ∧ u.rsq.waits.get p = none) ∧
        (¬ closes p → u.rsq.bypassOpen.get p = s.rsq.bypassOpen.get p ∧
          u.rsq.waits.get p = (s.rsq.waits.get p).map (fun n => n + 1))) ∧
    ((∃ p, s.rsq.bypassOpen.get p = true) → (∀ p, s.rsq.bypassOpen.get p = true → closes p) →
      u = handEnd k { s with rsq := { s.rsq with
        bridge := false, bypassOpen := Phases.same false, waits := Phases.same none
        lastEndCause := s.rsq.endCause
        state := if s.pins.enable = false then .off
          else if s.settings.linkReady ≤ s.spt.lastGood.link then .ready else .charge } })) ∧
  (∀ (k : CompletionTaking) (apart : Bool) (before : Phases Int) (s : State), s.rsq.state ≠ .release →
    closeWaits k apart before s = s)

/-- DURATION_EXPIRY takes a due expiry from INJECT to RELEASE with cause DURATION, the ramp count at 0, and nothing else
changed (R86, R99, R117, R119; log 5); in another state it has no effect on the restorer, and with no expiry due it
finds nothing to do (log 25). The restorer's own tests of an arrival: CHARGE to READY and back (R111, R112, R113), the
link-low run with its exit and the zero-budget exit, both EXHAUSTED (R118), and the recovery count with its exit
RECOVERED (R28, R30, R120). Outside INJECT an arrival that is no onset and no re-sag only goes into the open record. -/
def Obligations.DurationExpiryLeavesInject : Prop :=
  let leaves := fun (cause : EndCause) (s : State) =>
    { s with
      rsq := { s.rsq with state := .release, endCause := cause, rampDone := false }
      inc := { s.inc with rampCount := 0 } }
  (∀ s : State, s.evc.expiryDue = true → s.rsq.state = .inject →
    exec .durationExpiry s = .next (leaves .duration { s with evc := { s.evc with expiryDue := false } })) ∧
  (∀ s : State, s.evc.expiryDue = true → s.rsq.state ≠ .inject →
    exec .durationExpiry s = .next { s with evc := { s.evc with expiryDue := false } }) ∧
  (∀ s : State, s.evc.expiryDue = false → exec .durationExpiry s = .next s) ∧
  (∀ s : State, serviceTest s = { s with rsq := { s.rsq with state :=
    if s.rsq.state = .ready ∧ s.spt.lastGood.link < s.settings.linkMin ∧ s.rsq.onsetArrival = false then .charge
    else if s.rsq.state = .charge ∧ s.settings.linkReady ≤ s.spt.lastGood.link ∧ s.pru.lock = .locked ∧
      (s.slc.membership = .member ∨ s.slc.membership = .mute) then .ready
    else s.rsq.state } }) ∧
  (∀ (t : Nat) (set : RawSet) (s : State) (o : Outstanding), s.spt.outstanding = some o →
    max s.now t < o.deadline → parityGood set = true →
    (s.rsq.state = .charge → o.index ≠ 127 → s.settings.linkReady ≤ (saturatedSet set).link → s.pru.lock = .locked →
      onLine s = true → ∃ u, exec (.sampleSetArrival t set {}) s = .next u ∧
        u.rsq = { s.rsq with state := .ready, onsetArrival := false }) ∧
    (s.rsq.state = .ready → (saturatedSet set).link < s.settings.linkMin →
      onsetHere (takeSet o.index (some (saturatedSet set)) (settleDue (s.moveTo t))) = false →
      ∃ u, exec (.sampleSetArrival t set {}) s = .next u ∧ u.rsq.state = .charge)) ∧
  (∀ s : State, s.rsq.state = .inject → s.rsq.onsetArrival = false →
    (s.settings.linkMin ≤ s.spt.lastGood.link → linkRunTest s = { s with rsq := { s.rsq with linkLow := 0 } }) ∧
    (s.spt.lastGood.link < s.settings.linkMin → s.rsq.linkLow < 3 →
      linkRunTest s = { s with rsq := { s.rsq with linkLow := s.rsq.linkLow + 1 } }) ∧
    (s.spt.lastGood.link < s.settings.linkMin → 3 ≤ s.rsq.linkLow →
      linkRunTest s = leaves .exhausted { s with rsq := { s.rsq with linkLow := 4 } })) ∧
  (∀ s : State, s.rsq.state ≠ .inject ∨ s.rsq.onsetArrival = true → linkRunTest s = s) ∧
  (∀ s : State, (s.rsq.state = .inject → 2 ≤ s.esa.zeroCount.toNat → exhaustTest s = leaves .exhausted s) ∧
    (s.rsq.state ≠ .inject ∨ s.esa.zeroCount.toNat < 2 → exhaustTest s = s)) ∧
  (∀ (k : CompletionTaking) (s : State), s.rsq.state = .inject →
    let back := ∀ p, s.settings.recoverThreshold ≤ s.sdu.residual.get p
    let record := if s.sdu.record.isOpen = true then
        { s.sdu.record with
          sinceMask := s.sdu.record.sinceMask.join s.sdu.flags
          rMin := Phases.map2 min s.sdu.record.rMin s.sdu.residual }
      else s.sdu.record
    let counted := fun n => { s with sdu := { s.sdu with record := record, recovery := n } }
    (¬ back → detect k s = counted 0) ∧
    (back → s.sdu.recovery + 1 < s.settings.recoverPersistence → detect k s = counted (s.sdu.recovery + 1)) ∧
    (back → s.sdu.recovery + 1 = s.settings.recoverPersistence →
      detect k s = leaves .recovered (counted (s.sdu.recovery + 1))) ∧
    (back → s.settings.recoverPersistence ≤ s.sdu.recovery → detect k s = counted s.sdu.recovery)) ∧
  (∀ (k : CompletionTaking) (s : State), onsetHere s = false → resagHere s = false → s.rsq.state ≠ .inject →
    detect k s = { s with sdu := { s.sdu with record := if s.sdu.record.isOpen = true then
      { s.sdu.record with
        sinceMask := s.sdu.record.sinceMask.join s.sdu.flags
        rMin := Phases.map2 min s.sdu.record.rMin s.sdu.residual }
    else s.sdu.record } })

/-- The outputs agree with the restorer state after every step that found them so: the bridge is on in INJECT and
RELEASE alone, a bypass is open only then, and the port carries 0 outside them (R101, R109). -/
def Obligations.OutputsAgreeKept : Prop := ∀ s u : State, OutputsAgree s → step s = .next u → OutputsAgree u

/-- A restorer that is ready or in an event has a lock other than ACQUIRE and a place on the line, through every step
(R111, R112, R124). -/
def Obligations.ReadinessKept : Prop := ∀ s u : State, ReadinessHolds s → step s = .next u → ReadinessHolds u

/-! Sharing and injection. -/

/-- The budget curve over the shared bus voltage, which reads 0 before the first arrival after a reset (log 39), and the
zero-budget count (R58, R59), and the own demand set at a frame end, by the restorer's state and the window (R69). -/
def Obligations.BudgetAndOwnDemand : Prop :=
  (∀ (c : Config.Settings) (vb : Nat), c.vFloor < c.vKnee →
    (c.vKnee ≤ vb → budgetOf c vb = c.pMax) ∧
    (c.vFloor < vb → vb < c.vKnee → budgetOf c vb = c.pMax * (vb - c.vFloor) / (c.vKnee - c.vFloor)) ∧
    (vb ≤ c.vFloor → budgetOf c vb = 0) ∧ budgetOf c vb ≤ c.pMax) ∧
  (∀ n : BitVec 8, zeroCountAfter 0 n = satInc n) ∧ (∀ (b : Nat) (n : BitVec 8), 0 < b → zeroCountAfter b n = 0) ∧
  (∀ s : State, 0 < s.settings.rating →
    let u := setDemand s
    u = { s with inc := { s.inc with demand := u.inc.demand, pDem := 0, nDem := 0 } } ∧
    (eventActive s = false → u.inc.demand = 0) ∧
    (eventActive s = true → s.inc.nDem = 0 → u.inc.demand = s.inc.demand) ∧
    (eventActive s = true → 0 < s.inc.nDem →
      u.inc.demand ≤ s.settings.rating ∧
      (s.inc.pDem ≤ 0 → u.inc.demand = 0) ∧
      (u.inc.demand < s.settings.rating → s.inc.pDem ≤ (u.inc.demand : Int) * (s.inc.nDem * 10000)) ∧
      (0 < s.inc.pDem → ((u.inc.demand : Int) - 1) * (s.inc.nDem * 10000) < s.inc.pDem)))

/-- The effective demand and class of an entry and of the own term (R60, R61, R62, R63); the walk over the classes: one
that fits is served in full, the first that does not shares what remains, and the classes after it get 0 (R64); the own
grant and ratio, kept and handed to INC (R66, R67, R105). In every allocation the grants sum to no more than the budget,
no grant exceeds its demand, and the own ratio lies in 0..32768. -/
def Obligations.AllocationWithinBudget : Prop :=
  (∀ (ts : List Term) (b : Nat),
    (ts.map (grantOf ts b)).sum ≤ b ∧ (∀ x ∈ ts, grantOf ts b x ≤ x.demand) ∧ grantRatio ts b ≤ 32768) ∧
  (∀ e : PeerEntry,
    (e.state = .absent → peerTerm e = none) ∧
    (e.state ≠ .absent → e.slow = none → peerTerm e = some ⟨false, 0, e.fast.demand.toNat⟩) ∧
    (∀ w, e.state ≠ .absent → e.slow = some w → w.kind = 1 → peerTerm e = none) ∧
    (∀ w, e.state ≠ .absent → e.slow = some w → w.kind = 0 → e.foreign = false →
      peerTerm e = some ⟨false, w.cls.toNat, e.fast.demand.toNat⟩) ∧
    (∀ w, e.state ≠ .absent → e.slow = some w → w.kind = 0 → e.foreign = true →
      (e.fast.restorer = 3 ∨ e.fast.restorer = 4) → peerTerm e = some ⟨false, w.cls.toNat, w.rating.toNat⟩) ∧
    (∀ w, e.state ≠ .absent → e.slow = some w → w.kind = 0 → e.foreign = true →
      e.fast.restorer ≠ 3 → e.fast.restorer ≠ 4 → peerTerm e = some ⟨false, w.cls.toNat, e.fast.demand.toNat⟩)) ∧
  (∀ (s : State) (j : Nat),
    (ownSlot s = some j → slotTerm s j =
      some ⟨true, (s.evc.override.getD (BitVec.ofNat 2 s.settings.cls)).toNat, s.inc.demand⟩) ∧
    (ownSlot s ≠ some j → slotTerm s j = peerTerm (peerEntry s j))) ∧
  (∀ (ts : List Term) (b : Nat), ∃ r : Nat → Nat, r 0 = b ∧ ∀ c,
    let total := ((ts.filter (fun x => x.cls == c)).map Term.demand).sum
    (total ≤ r c → r (c + 1) = r c - total ∧ ∀ x ∈ ts, x.cls = c → grantOf ts b x = x.demand) ∧
    (r c < total → (∀ x ∈ ts, x.cls = c → grantOf ts b x = x.demand * r c / total) ∧ (∀ d, c < d → r d = 0) ∧
      ∀ x ∈ ts, c < x.cls → grantOf ts b x = 0)) ∧
  (∀ (ts : List Term) (b : Nat),
    (ts.find? Term.own = none → ownGrant ts b = 0 ∧ grantRatio ts b = 32768) ∧
    (∀ x, ts.find? Term.own = some x → ownGrant ts b = grantOf ts b x ∧
      (x.demand = 0 → grantRatio ts b = 32768) ∧
      (0 < x.demand → grantRatio ts b = 32768 * grantOf ts b x / x.demand))) ∧
  (∀ s : State,
    let b := budgetOf s.settings s.spt.lastGood.bus
    let ts := (List.range 12).filterMap (slotTerm s)
    let g := grantRatio ts b
    allocate s = { s with
      esa := { budget := b, zeroCount := zeroCountAfter b s.esa.zeroCount, grant := ownGrant ts b, ratio := g }
      inc := { s.inc with
        ratio := g, lowest := if eventActive s = true then min s.inc.lowest g else s.inc.lowest } })

/-- The rating clamp, and the range of its limit (R94). -/
def Obligations.RatingClamp : Prop :=
  (∀ (c : Config.Settings) (u : Int),
    (u > c.uMax → saturate c.uMax u = c.uMax) ∧ (u < -(c.uMax : Int) → saturate c.uMax u = -(c.uMax : Int)) ∧
    (-(c.uMax : Int) ≤ u → u ≤ c.uMax → saturate c.uMax u = u)) ∧
  (∀ (s : State) (k : Nat) (set : SampleSet), clampedValues s k set =
    ((rawValues s k set).map (saturate s.settings.uMax)).map (saturate (linkLimitOf s.settings set.link))) ∧
  (∀ c : Config.Settings, 200 ≤ (clampCross (clampRanges c)).uMax ∧ (clampCross (clampRanges c)).uMax ≤ 4000) ∧
  Config.defaults.uMax = 2000

/-- The energy of an event in joules (R104). -/
def Obligations.EventEnergy : Prop :=
  (∀ s : State, 0 < s.settings.fNom →
    let q := Int.fdiv s.inc.energy (1280 * s.settings.fNom)
    (endFields s).energy = joules s ∧
    (q < -2147483648 → joules s = -2147483648) ∧ (2147483647 < q → joules s = 2147483647) ∧
    (-2147483648 ≤ q → q ≤ 2147483647 →
      joules s * (1280 * s.settings.fNom) ≤ s.inc.energy ∧
      s.inc.energy < (joules s + 1) * (1280 * s.settings.fNom)) ∧
    (s.inc.energy = 0 → joules s = 0) ∧ (s.inc.energy < 0 → joules s < 0)) ∧
  (∀ s : State, (openRecord s).inc.energy = 0) ∧
  (1280 * 50 = 64000 ∧ 1280 * 60 = 76800)

/-- INC's work on a handled set in INJECT and in RELEASE: port, limited flag, energy sum, demand window and ramp;
nothing but INC and the ramp report changes (R68, R89, R96, R97, R98, R99, R101, R103, R122). The raw values under
PRESAG (R92) and INPHASE (R93), and the link limit (R95). -/
def Obligations.HandledSet : Prop :=
  (∀ (s : State) (k : Nat) (set : SampleSet) (p : Phase),
    (s.inc.method = .presag → (rawValues s k set).get p =
      (s.pru.ref.samples.getD k (Phases.same 0)).get p - set.v.get p) ∧
    (s.inc.method = .inphase →
      let r : Nat := max (s.sdu.rms.get p) (s.settings.vNom / 10)
      let target : Nat := if fresh s = true then s.pru.ref.rms.get p else s.settings.vNom
      (rawValues s k set).get p = Int.tdiv (set.v.get p * ((target : Int) - r)) r)) ∧
  (∀ (c : Config.Settings) (link : Nat), linkLimitOf c link = link * 45 * c.turns / 100000) ∧
  (∀ (k : Nat) (set : SampleSet) (s : State),
    (s.rsq.state = .inject → s.rsq.onsetArrival = false → s.inc.ramp = 32768 →
      let uc := clampedValues s k set
      let uo := uc.map (fun x => Int.tdiv (x * s.inc.ratio) 32768)
      injectSet k set s =
        { s with inc := { s.inc with
            port := uo
            limited := s.inc.limited || uc != rawValues s k set
            energy := s.inc.energy + (uo.a * set.i.a + uo.b * set.i.b + uo.c * set.i.c)
            pDem := s.inc.pDem + (uc.a * set.i.a + uc.b * set.i.b + uc.c * set.i.c)
            nDem := s.inc.nDem + 1 } }) ∧
    (s.rsq.state = .release → s.rsq.onsetArrival = false →
      let uc := clampedValues s k set
      let s1 := rampStep s
      let ur := uc.map (fun x => Int.tdiv (x * s1.inc.ramp) 32768)
      let uo := ur.map (fun x => Int.tdiv (x * s.inc.ratio) 32768)
      injectSet k set s =
        { s1 with inc := { s1.inc with
            port := uo
            limited := s.inc.limited || uc != rawValues s k set
            energy := s.inc.energy + (uo.a * set.i.a + uo.b * set.i.b + uo.c * set.i.c)
            pDem := s.inc.pDem + (ur.a * set.i.a + ur.b * set.i.b + ur.c * set.i.c)
            nDem := s.inc.nDem + 1 } }) ∧
    (eventActive s = false ∨ s.rsq.onsetArrival = true → injectSet k set s = s)) ∧
  (∀ s : State, s.rsq.state = .release → 0 < s.settings.rampLength → s.inc.rampCount ≤ s.settings.rampLength →
    let n := min (s.inc.rampCount + 1) s.settings.rampLength
    let a := 32768 * (s.settings.rampLength - n) / s.settings.rampLength
    rampStep s =
      { s with
        inc := { s.inc with rampCount := n, ramp := a }
        rsq := { s.rsq with rampDone := s.rsq.rampDone || decide (a = 0) } } ∧
    (n = s.settings.rampLength → a = 0))

/-- Every value that the port carries after the outcome of a strobe lies within U_max and the link limit of its set,
whether the arrival wrote it, or an onset or an event's end put 0 there (R94, R95, R98, R101, R109). The premises are
two of the invariants that every step keeps (`OutputsAgreeKept`, `FractionsBoundedKept`). With no strobe outstanding an
arrival writes nothing. -/
def Obligations.PortWithinLimits : Prop :=
  ∀ (c : Instr) (s u : State), ((∃ t set k, c = .sampleSetArrival t set k) ∨ (∃ k, c = .arrivalDeadline k)) →
    exec c s = .next u →
    (s.spt.outstanding = none → u.inc.port = s.inc.port) ∧
    (s.spt.outstanding.isSome = true → OutputsAgree s → FractionsBounded s → ∀ p : Phase,
      (u.inc.port.get p).natAbs ≤ s.settings.uMax ∧
      (u.inc.port.get p).natAbs ≤ linkLimitOf s.settings u.spt.lastGood.link)

/-- Ramp factor and ratios stay in 0..32768, and the ramp factor at one in INJECT, through every step (R98, R99,
R105). -/
def Obligations.FractionsBoundedKept : Prop := ∀ s u : State, FractionsBounded s → step s = .next u → FractionsBounded u

/-! Classification. -/

/-- The window at a frame end: coincidences first, then GRID, LOCAL or still PENDING (R75, R76), with the entries that
count as coincidences (R75); a decision applies the action of the entry found (`ActionOfAnEntry`). The search takes the
first entry in force that matches the class, the phase count and the depth, and no void entry (R79, R80, R81). The depth
is the least r_min of the flagged phases (R29). -/
def Obligations.WindowDecides : Prop :=
  (∀ (b b' : Bool) (s : State), s.evc.window = true →
    let n := coincidences s
    let u := windowStep b b' s
    let decided := fun (c : EventClass) =>
      applyAction b b' ((searchTable c s).map Prod.snd)
        { s with evc := { s.evc with
            coincidence := n, windowCount := s.evc.windowCount + 1, eventClass := c, window := false
            matched := (searchTable c s).map Prod.fst } }
    (s.settings.k ≤ n → u = decided .grid) ∧ (n < s.settings.k → 1 ≤ s.evc.windowCount → u = decided .localOnly) ∧
    n ≤ 12 ∧ ((ownSlot s).isSome = true → n ≤ 11) ∧ u.evc.coincidence = n ∧
    (s.settings.k ≤ n → u.evc.eventClass = .grid ∧ u.evc.window = false ∧
      u.evc.matched = (searchTable .grid s).map Prod.fst) ∧
    (n < s.settings.k → s.evc.windowCount = 0 →
      u = { s with evc := { s.evc with coincidence := n, windowCount := 1 } }) ∧
    (n < s.settings.k → s.evc.windowCount = 1 → u.evc.eventClass = .localOnly ∧ u.evc.window = false ∧
      u.evc.matched = (searchTable .localOnly s).map Prod.fst)) ∧
  (∀ (b b' : Bool) (s : State), s.evc.window = false → windowStep b b' s = s) ∧
  (∀ s : State, coincidences s = ((List.range 12).filter (fun j =>
    decide (ownSlot s ≠ some j) && witness s.sdu.record.sinceMask (peerEntry s j))).length) ∧
  (∀ (mask : Phases Bool) (e : PeerEntry), witness mask e = true ↔
    e.state = .live ∧ (∃ w, e.slow = some w ∧ w.kind = 0) ∧
    ∃ p, mask.get p = true ∧ (e.fast.sagNow.get p = true ∨ e.sagPrev.get p = true)) ∧
  (∀ (e : TableEntry) (c : EventClass) (count d : Nat), entryMatches e c count d = true ↔
    (e.classMatch = .any ∨ (e.classMatch = .grid ∧ c = .grid) ∨ (e.classMatch = .localOnly ∧ c = .localOnly)) ∧
    1 ≤ count ∧ e.phaseSet.getLsbD (count - 1) = true ∧ e.lo ≤ d ∧ d ≤ e.hi) ∧
  (∀ r : OnsetRecord, (∀ p, r.sinceMask.get p = true → depth r ≤ r.rMin.get p) ∧
    ((∃ p, r.sinceMask.get p = true ∧ r.rMin.get p ≤ 1500) → ∃ p, r.sinceMask.get p = true ∧ depth r = r.rMin.get p)) ∧
  (∀ (c : EventClass) (s : State),
    let count := s.sdu.record.sinceMask.count
    let d := depth s.sdu.record
    (∀ n e, searchTable c s = some (n, e) → s.evc.table[n]? = some e ∧ entryMatches e c count d = true ∧
      e.lo ≤ d ∧ d ≤ e.hi ∧ ∀ m e', m < n → s.evc.table[m]? = some e' → entryMatches e' c count d = false) ∧
    (searchTable c s = none → ∀ e ∈ s.evc.table, entryMatches e c count d = false))

/-- The action of an entry: method with the fallback to INPHASE, withdrawal mark, class override, duration limit, and
the release of its capture alone (R82 to R86, R146). An injecting restorer leaves for RELEASE by a withdrawal, and by a
limit that the count has reached already, with the cause of the one taken first (R83, R119; log 20); an expiry that the
operand leaves apart is marked as due (log 5). A restorer in RELEASE stays in it with its cause, and no expiry is
handed. With no entry the default action: the method in use with the same fallback, no override, no limit, the capture
kept (R81). -/
def Obligations.ActionOfAnEntry : Prop :=
  (∀ (b b' : Bool) (s : State),
    let u := applyAction b b' none s
    u = { s with
      inc := { s.inc with method := u.inc.method }
      evc := { s.evc with override := none, limit := none, stale := u.evc.stale } } ∧
    (s.inc.method = .inphase → u.inc.method = .inphase ∧ u.evc.stale = s.evc.stale) ∧
    (s.inc.method = .presag → fresh s = true → u.inc.method = .presag ∧ u.evc.stale = s.evc.stale) ∧
    (s.inc.method = .presag → fresh s = false → u.inc.method = .inphase ∧ u.evc.stale = true)) ∧
  (∀ (b b' : Bool) (e : TableEntry) (s : State),
    let u := applyAction b b' (some e) s
    let reached := e.limit ≠ 0 ∧ e.limit ≤ s.evc.cycles.toNat
    let leaves := fun (cause : EndCause) =>
      u.rsq = { s.rsq with state := .release, endCause := cause, rampDone := false } ∧ u.inc.rampCount = 0
    let stays := u.rsq = s.rsq ∧ u.inc.rampCount = s.inc.rampCount
    (s.rsq.state = .inject →
      (e.method = .withdraw → b = false ∨ b' = true ∨ ¬ reached → leaves .withdrawn) ∧
      (e.method = .withdraw → b = true → b' = false → reached → leaves .duration) ∧
      (e.method ≠ .withdraw → b' = false → reached → leaves .duration) ∧
      (e.method ≠ .withdraw → b' = true ∨ ¬ reached → stays) ∧
      (u.evc.expiryDue = true ↔
        s.evc.expiryDue = true ∨ (b' = true ∧ reached ∧ (e.method = .withdraw → b = true)))) ∧
    (s.rsq.state ≠ .inject → stays ∧ u.evc.expiryDue = s.evc.expiryDue)) ∧
  ∀ (b b' : Bool) (e : TableEntry) (s : State),
    let u := applyAction b b' (some e) s
    u.evc = { s.evc with
      override := e.override, limit := if e.limit = 0 then none else some e.limit
      withdrawn := s.evc.withdrawn || decide (e.method = .withdraw), stale := u.evc.stale
      expiryDue := u.evc.expiryDue } ∧
    u.inc = { s.inc with method := u.inc.method, rampCount := u.inc.rampCount } ∧
    (e.method = .presag → fresh s = true → u.inc.method = .presag ∧ u.evc.stale = s.evc.stale) ∧
    (e.method = .presag → fresh s = false → u.inc.method = .inphase ∧ u.evc.stale = true) ∧
    (e.method = .inphase → u.inc.method = .inphase ∧ u.evc.stale = s.evc.stale) ∧
    (e.method = .withdraw → u.inc.method = s.inc.method ∧ u.evc.stale = s.evc.stale) ∧
    (e.capture = true → u.cst = s.cst) ∧
    (e.capture = false →
      u.cst = { s.cst with filling := u.cst.filling, queued := u.cst.queued } ∧
      (s.cst.filling = none → u.cst.filling = none) ∧ (s.cst.queued = none → u.cst.queued = none) ∧
      (∀ f, s.cst.filling = some f →
        u.cst.filling = if f.test = true ∨ f.making.onset.event ≠ s.rsq.event then some f else none) ∧
      (∀ q, s.cst.queued = some q →
        u.cst.queued = if q.making.onset.event ≠ s.rsq.event then some q else none)) ∧
    u = { s with evc := u.evc, inc := u.inc, rsq := u.rsq, cst := u.cst }

/-! The capture store. -/

/-- CST at an onset: it opens a capture in the FREE fill slot or in a test capture's, with the history as its first
record cycle and its summary words at 0; or queues one opening behind a post tail; or counts a missed capture (R138,
R139, R140, R149, R151; log 23). An onset with no layout fixed, which no run reaches, counts as missed too: the model's
reading (log 32, DEDUCED). Before that the captures of events that have ended take their class fields (R144). An onset
taken or refused reaches CST so (R113, R114); with k = 0 the action found at the onset may release the capture again, or
cancel the queued opening (R87, R146). The position within the frame (R36). -/
def Obligations.CaptureOpensAtOnset : Prop :=
  (∀ s : State, (s.slc.timing = none → framePosition s = 0) ∧
    ∀ g, s.slc.timing = some g →
      framePosition s = min 479 ((s.now - g.lastFrameEnd.getD g.gridStart) / 1000)) ∧
  (∀ s : State,
    let fields : ClassFields :=
      { eventClass := s.evc.eventClass, coincidence := s.evc.coincidence, matched := s.evc.matched
        stale := s.evc.stale, mask := s.sdu.record.sinceMask, rMin := s.sdu.record.rMin }
    let classed := fun (m : Making) =>
      if m.ended ≠ none ∧ m.classed = none then { m with classed := some fields } else m
    takeClassFields s = { s with cst := { s.cst with
      filling := s.cst.filling.map (fun c => { c with making := classed c.making })
      queued := s.cst.queued.map (fun q => { q with making := classed q.making }) } }) ∧
  (∀ (k : CompletionTaking) (s : State), onsetHere s = true →
    let u := detect k s
    let handed := { takeClassFields s with rsq := u.rsq, inc := u.inc, sdu := u.sdu, evc := u.evc }
    let v := (captureOnset handed).cst
    let no := ∃ n e, searchTable .grid u = some (n, e) ∧ e.capture = false
    (0 < s.esa.budget → s.settings.k ≠ 0 ∨ ¬ no → u.cst = v) ∧
    (0 < s.esa.budget → s.settings.k = 0 → no →
      u.cst = { v with filling := u.cst.filling, queued := u.cst.queued } ∧
      (v.filling = none → u.cst.filling = none) ∧ (v.queued = none → u.cst.queued = none) ∧
      (∀ f, v.filling = some f →
        u.cst.filling = if f.test = true ∨ f.making.onset.event ≠ u.rsq.event then some f else none) ∧
      (∀ q, v.queued = some q →
        u.cst.queued = if q.making.onset.event ≠ u.rsq.event then some q else none)) ∧
    (s.esa.budget = 0 → u.cst = (handEnd k (captureOnset handed)).cst)) ∧
  ∀ s : State,
    let m : Making :=
      { onset :=
          { event := s.rsq.event, frameNumber := s.slc.frameNumber, position := framePosition s
            refAge := s.pru.ref.age }
        duration := 1, ended := none, classed := none }
    let u := captureOnset s
    u = { s with cst := u.cst } ∧
    (s.cst.layout = none ∨ (∃ l, s.cst.layout = some l ∧ s.cst.filling = none ∧ l.slots ≤ s.cst.full) ∨
        (∃ c, s.cst.filling = some c ∧ c.test = false ∧ (c.tail = none ∨ s.cst.queued.isSome = true)) →
      u.cst = { s.cst with missed := satInc s.cst.missed }) ∧
    (∀ c l, s.cst.layout = some l → s.cst.filling = some c → c.test = false → c.tail.isSome = true →
      s.cst.queued = none → u.cst = { s.cst with queued := some { making := m, atOnset := true } }) ∧
    (∀ l, s.cst.layout = some l →
      (s.cst.filling = none ∧ s.cst.full < l.slots) ∨ (∃ c, s.cst.filling = some c ∧ c.test = true) →
      u.cst = { s.cst with
        mem := u.cst.mem
        filling := some
          { making := m, written := 128, tail := none, truncated := false, delayed := false, test := false } } ∧
      (MemoryCanonical s → RingAgrees s →
        (∀ (q : Fin 128) (n : Fin 12), Memory.read u.cst.mem (setAddr l s.cst.fill q + n) =
          (setBytes (s.cst.history.getD q ⟨Phases.same 0, Phases.same 0⟩)).getD n 0) ∧
        (∀ w : Fin 16, recordWord u.cst l s.cst.fill w = 0) ∧
        (∀ a, (a < setAddr l s.cst.fill 0 ∨ setAddr l s.cst.fill 128 ≤ a) →
          (a < summaryAddr s.cst.fill ∨ summaryAddr s.cst.fill + 64 ≤ a) →
          Memory.read u.cst.mem a = Memory.read s.cst.mem a)))

/-- CAPTURE_COMPLETION of a capture with nothing queued behind it: the summary stands in the slot's sixteen words, the
FULL count and the fill pointer advance, and no byte outside the summary area changes (R143, R151, R181). An opening
queued behind it is made at once, with the history of 128 arrivals that every step keeps (`RingAgreesKept`), or counted
missed when the next slot is FULL (R139, R140); one whose event has ended opens in its post tail, and with a post tail
of 0 completes at once (R142). When a capture is due (R142), the fields of an event's and of a test's summary (R144,
R150), and the sixteen words (R181, R159). A capture that is not due does not complete (log 25). -/
def Obligations.CaptureCompletionFilesRecord : Prop :=
  (∀ (s : State) (l : Layout) (c : Capture), s.cst.layout = some l → s.cst.filling = some c → captureDue s = true →
    s.cst.queued = none → MemoryCanonical s →
    ∃ u, exec .captureCompletion s = .next u ∧ u.cst.full = s.cst.full + 1 ∧
      u.cst.fill = (s.cst.fill + 1) % l.slots ∧ u.cst.filling = none ∧ u.cst.oldest = s.cst.oldest ∧
      u.cst.missed = s.cst.missed ∧
      (∀ n : Fin 16, recordWord u.cst l s.cst.fill n =
        (summaryWords (if c.test then testSummary s c false else eventSummary s c)).getD n 0) ∧
      (∀ a, a < summaryAddr s.cst.fill ∨ summaryAddr s.cst.fill + 64 ≤ a →
        Memory.read u.cst.mem a = Memory.read s.cst.mem a) ∧
      u = { s with cst := u.cst }) ∧
  (∀ (s : State) (l : Layout) (c : Capture) (q : Queued), s.cst.layout = some l → s.cst.filling = some c →
    captureDue s = true → s.cst.queued = some q →
    let opened : Capture :=
      { making := q.making, written := 128, tail := if q.making.ended = none then none else some 0, truncated := false
        delayed := !q.atOnset, test := false }
    ∃ u, exec .captureCompletion s = .next u ∧ u = { s with cst := u.cst } ∧ u.cst.oldest = s.cst.oldest ∧
      u.cst.queued = none ∧ u.cst.layout = s.cst.layout ∧ u.cst.history = s.cst.history ∧
      (MemoryCanonical s → s.cst.history.length = 128 → ∀ n : Fin 16, recordWord u.cst l s.cst.fill n =
        (summaryWords (if c.test then testSummary s c false else eventSummary s c)).getD n 0) ∧
      (l.slots ≤ s.cst.full + 1 → u.cst.filling = none ∧ u.cst.missed = satInc s.cst.missed ∧
        u.cst.full = s.cst.full + 1 ∧ u.cst.fill = (s.cst.fill + 1) % l.slots) ∧
      (s.cst.full + 1 < l.slots → q.making.ended = none ∨ 0 < s.settings.postTail →
        u.cst.filling = some opened ∧ u.cst.missed = s.cst.missed ∧
        u.cst.full = s.cst.full + 1 ∧ u.cst.fill = (s.cst.fill + 1) % l.slots) ∧
      (s.cst.full + 1 < l.slots → q.making.ended ≠ none → s.settings.postTail = 0 →
        u.cst.filling = none ∧ u.cst.missed = s.cst.missed ∧
        u.cst.full = s.cst.full + 2 ∧ u.cst.fill = (s.cst.fill + 2) % l.slots)) ∧
  (∀ s : State, captureDue s = true ↔ ∃ l c, s.cst.layout = some l ∧ s.cst.filling = some c ∧
    ((c.test = true ∧ 128 * l.cycles ≤ c.written) ∨
     (c.test = false ∧ ∃ n, c.tail = some n ∧
       (128 * l.cycles ≤ c.written ∨ (128 * s.settings.postTail ≤ n ∧ c.written % 128 = 0))))) ∧
  (∀ (s : State) (c : Capture) (e : EndFields), c.making.ended = some e → eventSummary s c =
    { onset := c.making.onset, endFrame := e.frameNumber, endPosition := e.position, duration := c.making.duration
      energy := e.energy, lowest := e.lowest, method := some e.method, cause := e.cause, truncated := c.truncated
      limited := e.limited, resag := e.resag, test := false, delayed := c.delayed, cycles := c.written / 128
      classed := c.making.classed.getD
        { eventClass := s.evc.eventClass, coincidence := s.evc.coincidence, matched := s.evc.matched
          stale := s.evc.stale, mask := s.sdu.record.sinceMask, rMin := s.sdu.record.rMin } }) ∧
  (∀ (s : State) (c : Capture) (cut : Bool), testSummary s c cut =
    { onset := c.making.onset, endFrame := s.slc.frameNumber, endPosition := framePosition s, duration := 0
      energy := 0, lowest := 32768, method := none, cause := .test, truncated := cut, limited := false, resag := false
      test := true, delayed := false, cycles := c.written / 128
      classed :=
        { eventClass := .pending, coincidence := 0, matched := none, stale := false, mask := Phases.same false
          rMin := Phases.same 1500 } }) ∧
  (∀ m : Summary,
    let w := fun (n : Nat) => (summaryWords m).getD n 0
    let half := fun (n lsb : Nat) => (w n).extractLsb' lsb 16
    let byte := fun (n lsb : Nat) => (w n).extractLsb' lsb 8
    (summaryWords m).length = 16 ∧ w 0 = m.onset.event ∧ w 1 = m.onset.frameNumber ∧
    half 2 16 = BitVec.ofNat 16 m.onset.position ∧ half 2 0 = m.onset.refAge ∧ w 3 = m.endFrame ∧
    half 4 16 = BitVec.ofNat 16 m.endPosition ∧ half 4 0 = 0 ∧ w 5 = m.duration ∧ w 6 = BitVec.ofInt 32 m.energy ∧
    half 7 16 = BitVec.ofNat 16 m.lowest ∧ (m.classed.matched = none → half 7 0 = 0xFFFF#16) ∧
    (∀ n, m.classed.matched = some n → half 7 0 = BitVec.ofNat 16 n) ∧
    half 8 16 = BitVec.ofNat 16 m.classed.rMin.a ∧ half 8 0 = BitVec.ofNat 16 m.classed.rMin.b ∧
    half 9 16 = BitVec.ofNat 16 m.classed.rMin.c ∧ half 9 0 = 0 ∧
    byte 10 24 = (match m.classed.eventClass with | .pending => 0 | .grid => 1 | .localOnly => 2) ∧
    byte 10 16 = BitVec.ofNat 8 m.classed.coincidence ∧ (w 10).getLsbD 8 = m.classed.mask.a ∧
    (w 10).getLsbD 9 = m.classed.mask.b ∧ (w 10).getLsbD 10 = m.classed.mask.c ∧ (w 10).extractLsb' 11 5 = 0 ∧
    byte 10 0 = (match m.method with | some .presag => 0 | some .inphase => 1 | none => 3) ∧
    byte 11 24 = m.cause.code.setWidth 8 ∧ (w 11).getLsbD 16 = m.truncated ∧ (w 11).getLsbD 17 = m.limited ∧
    (w 11).getLsbD 18 = m.classed.stale ∧ (w 11).getLsbD 19 = m.resag ∧ (w 11).getLsbD 20 = m.test ∧
    (w 11).getLsbD 21 = m.delayed ∧ (w 11).extractLsb' 22 2 = 0 ∧ byte 11 8 = BitVec.ofNat 8 m.cycles ∧
    byte 11 0 = 0 ∧ w 12 = 0 ∧ w 13 = 0 ∧ w 14 = 0 ∧ w 15 = 0) ∧
  [EndCause.none, .recovered, .exhausted, .withdrawn, .duration, .overcurrent, .fault, .sense, .disabled, .test].map
    EndCause.code = [0, 1, 2, 3, 4, 5, 6, 7, 8, 9] ∧
  (∀ s : State, captureDue s = false → exec .captureCompletion s = .next s)

/-- Oldest pointer, FULL count, fill pointer and the filling slot agree, and the pre-trigger history holds 128 arrivals,
through every step (R136, R137, R152). -/
def Obligations.RingAgreesKept : Prop := ∀ s u : State, RingAgrees s → step s = .next u → RingAgrees u

/-- The capture memory keeps its canonical form through every step. The form is the model's own representation of the
store (log 23), the premise of what other statements say of its bytes; no rule of the manual speaks of it. -/
def Obligations.MemoryCanonicalKept : Prop :=
  ∀ s u : State, MemoryCanonical s → step s = .next u → MemoryCanonical u

/-! The share line. -/

/-- BLOCK_START: inside the window of the current slot the block is the slot's and the next slot starts 40 microseconds
after it; elsewhere it is a stray block that moves nothing; on an active line no block begins (R34, R35, R57). What the
clauses say of three points is the model's own reading, not the manual's: a block that begins at the very end of the
window is inside it (log 14, DEDUCED); a reception that has run its 25.6 microseconds and whose end was never sent is
given up for the next block (log 15, DEDUCED); and a block that begins at the very instant of the next slot's nominal
start, taken before SLOT_START, is a stray block of the slot that ends (log 35, DESIGN CHOICE). -/
def Obligations.BlockStartSortsBlock : Prop :=
  ∀ (t : Nat) (s : State), s.now ≤ t →
    let s' := { s with now := t }
    (∀ g, s.pins.resetHeld = false → lineActive t s.slc = false → s.slc.timing = some g → g.taken = false →
      g.nominal ≤ t → t ≤ g.nominal + 12000 →
      exec (.blockStart t) s = .next
        { s' with slc := { s.slc with
            timing := some { g with taken := true, next := t + 40000 }
            rx := some { start := t, inSlot := some g.slot } } }) ∧
    (∀ g, s.pins.resetHeld = false → lineActive t s.slc = false → s.slc.timing = some g →
      (g.taken = true ∨ t < g.nominal ∨ g.nominal + 12000 < t) →
      exec (.blockStart t) s = .next { s' with slc := { s.slc with rx := some { start := t, inSlot := none } } }) ∧
    (s.pins.resetHeld = false → lineActive t s.slc = false → s.slc.timing = none →
      exec (.blockStart t) s = .next { s' with slc := { s.slc with rx := some { start := t, inSlot := none } } }) ∧
    (s.pins.resetHeld = true ∨ lineActive t s.slc = true → exec (.blockStart t) s = .next s') ∧
    (lineActive t s.slc = true ↔
      (∃ r, s.slc.rx = some r ∧ t < r.start + 25600) ∨ ∃ x, s.slc.tx = some x ∧ t < x.start + 25600)

/-- A block that is not valid or is malformed adds one to the line error count, modulo 65536, and has no further effect
(R37). A claim on the own slot marks a collision in MEMBER and is discarded otherwise; a read-back that is not what was
sent marks one in MEMBER (R38, R44, R132). With nothing received or sent there is nothing to take (log 25). -/
def Obligations.LineErrorsAndClaims : Prop :=
  (∀ (t : Nat) (bytes : List Byte) (s : State) (r : Reception), s.slc.rx = some r →
    (blockValid bytes = false ∨ blockMalformed (decodeBlock bytes) = true) →
    exec (.blockReceived t false bytes) s = .next
      { s with
        now := max s.now t
        slc := { s.slc with rx := none, lineErrors := BitVec.ofNat 16 (s.slc.lineErrors.toNat + 1) } }) ∧
  (∀ (t : Nat) (bytes : List Byte) (s : State) (r : Reception), s.slc.rx = some r → blockValid bytes = true →
    blockMalformed (decodeBlock bytes) = false → ownSlot s = some (decodeBlock bytes).slot.toNat →
    exec (.blockReceived t false bytes) s = .next
      { s with
        now := max s.now t
        slc := { s.slc with
          rx := none
          collisionMark := if s.slc.membership = .member then true else s.slc.collisionMark } }) ∧
  (∀ (t : Nat) (bytes : List Byte) (s : State) (x : Transmission), s.slc.tx = some x →
    exec (.blockReceived t true bytes) s = .next
      { s with
        now := max s.now t
        slc := { s.slc with
          tx := none
          collisionMark := s.slc.collisionMark ||
            (s.slc.membership == .member && (!blockValid bytes || bytes != x.bytes)) }
        rsq := { s.rsq with sentSince := s.rsq.sentSince || x.quiesce } }) ∧
  (∀ (t : Nat) (bytes : List Byte) (s : State),
    (s.slc.rx = none → exec (.blockReceived t false bytes) s = .next { s with now := max s.now t }) ∧
    (s.slc.tx = none → exec (.blockReceived t true bytes) s = .next { s with now := max s.now t }))

/-- An aligned block of another station is taken into its slot's entry: LIVE, fast fields as received, sag_prev the mask
before, slow fields accepted on repetition; nothing else changes (R38, R51, R52, R53). -/
def Obligations.AlignedBlockTaken : Prop :=
  ∀ (t : Nat) (bytes : List Byte) (s : State) (r : Reception) (g : Timing), s.slc.rx = some r →
    s.slc.timing = some g → blockValid bytes = true → blockMalformed (decodeBlock bytes) = false →
    let b := decodeBlock bytes
    r.inSlot = some b.slot.toNat → ownSlot s ≠ some b.slot.toNat →
    (s.slc.membership ≠ .listen ∨ s.slc.heardFirst = true) → s.slc.peers.length = 12 →
    ∃ u, exec (.blockReceived t false bytes) s = .next u ∧
      u = { s with now := max s.now t, slc := { s.slc with rx := none, peers := u.slc.peers } } ∧
      (∀ j, j ≠ b.slot.toNat → peerEntry u j = peerEntry s j) ∧
      (let e := peerEntry s b.slot.toNat
       let e' := peerEntry u b.slot.toNat
       e'.state = .live ∧ e'.missed = 0 ∧ e'.heard = true ∧ e'.fast = b.fast ∧ e'.frameNumber = b.frameNumber ∧
       e'.sagPrev = e.fast.sagNow ∧ e'.candidate = some b.slow ∧
       (e.candidate = some b.slow → e'.slow = some b.slow ∧ e'.foreign = (b.slow.digest != s.cfl.digest)) ∧
       (e.candidate ≠ some b.slow → e'.slow = e.slow))

/-- A block of another station, aligned, misaligned or heard while untimed, is taken into its slot's entry (R38, R51,
R52, R53). For the timing, the first one of LISTEN is adopted (R40), one heard while untimed times the station (R38), a
misaligned one retimes a station that is not on the line and leaves a candidate at one that is (R46, R47, R56; log 17,
18), the first of the frame or one that wins over it (R46). The window of the slot that a retimed station enters is
taken: the model's reading (log 28, DEDUCED). -/
def Obligations.HeardBlockTimesStation : Prop :=
  (∀ (d : Half) (w : Slow), foreignTo d none = false ∧ (foreignTo d (some w) = true ↔ w.digest ≠ d)) ∧
  (∀ c : Candidate, candidateAfter none c = c) ∧
  (∀ o c : Candidate,
    (o.frameNumber < c.frameNumber ∨ (c.frameNumber = o.frameNumber ∧ c.slot < o.slot) →
      candidateAfter (some o) c = c) ∧
    (c.frameNumber < o.frameNumber ∨ (c.frameNumber = o.frameNumber ∧ o.slot ≤ c.slot) →
      candidateAfter (some o) c = o)) ∧
  ∀ (t : Nat) (bytes : List Byte) (s : State) (r : Reception), s.slc.rx = some r → blockValid bytes = true →
    blockMalformed (decodeBlock bytes) = false →
    let b := decodeBlock bytes
    ownSlot s ≠ some b.slot.toNat →
    ∃ u, exec (.blockReceived t false bytes) s = .next u ∧
      u = { s with now := max s.now t, slc := u.slc } ∧ u.slc.rx = none ∧ u.slc.membership = s.slc.membership ∧
      u.slc.lineErrors = s.slc.lineErrors ∧ u.slc.collisionMark = s.slc.collisionMark ∧ u.slc.tx = s.slc.tx ∧
      (let n := (max s.now t - r.start) / 40000
       let timed := ∃ g, u.slc.timing = some g ∧ g.slot = (b.slot.toNat + n) % 12 ∧
        g.nominal = r.start + n * 40000 ∧ g.next = r.start + (n + 1) * 40000 ∧ g.taken = true
       (s.slc.membership = .listen → s.slc.heardFirst = false →
         timed ∧ u.slc.heardFirst = true ∧ u.slc.listenEnd = none ∧
         u.slc.frameNumber.toNat =
           max s.slc.frameNumber.toNat (min 4294967295 (b.frameNumber.toNat + 1)) ∧
         u.slc.candidate = s.slc.candidate ∧
         (s.slc.timing = none ∨ r.inSlot = some b.slot.toNat → u.slc.misalignCount = s.slc.misalignCount) ∧
         (s.slc.timing.isSome = true → r.inSlot ≠ some b.slot.toNat →
           u.slc.misalignCount = satInc s.slc.misalignCount)) ∧
       ((s.slc.membership ≠ .listen ∨ s.slc.heardFirst = true) →
         u.slc.heardFirst = s.slc.heardFirst ∧ u.slc.listenEnd = s.slc.listenEnd ∧
         u.slc.frameNumber = s.slc.frameNumber ∧
         (s.slc.timing = none → timed ∧ u.slc.misalignCount = s.slc.misalignCount) ∧
         (s.slc.timing.isSome = true → r.inSlot = some b.slot.toNat →
           u.slc.timing = s.slc.timing ∧ u.slc.misalignCount = s.slc.misalignCount ∧
           u.slc.candidate = s.slc.candidate) ∧
         (s.slc.timing.isSome = true → r.inSlot ≠ some b.slot.toNat →
           u.slc.misalignCount = satInc s.slc.misalignCount ∧
           (onLine s = false → timed ∧ u.slc.candidate = s.slc.candidate) ∧
           (onLine s = true → u.slc.timing = s.slc.timing ∧
             u.slc.candidate = some (candidateAfter s.slc.candidate
               { start := r.start, slot := b.slot.toNat, frameNumber := b.frameNumber }))))) ∧
      (∀ j, j ≠ b.slot.toNat → peerEntry u j = peerEntry s j) ∧
      (s.slc.peers.length = 12 →
        let e := peerEntry s b.slot.toNat
        let accepted := if e.candidate = some b.slow then some b.slow else e.slow
        peerEntry u b.slot.toNat =
          { state := .live, missed := 0, heard := true, slow := accepted, candidate := some b.slow
            foreign := foreignTo s.cfl.digest accepted, frameNumber := b.frameNumber, fast := b.fast
            sagPrev := e.fast.sagNow })

/-- START_ALONE declares slot 0 at the expiry, enters MEMBER with the frame number kept, hands the change to RSQ, and
sends at once in own slot 0 (R42, R43, R111; log 8). A reception in progress is slot 0's block when it began inside the
window of that slot, at the declared instant or after it, and a stray block when it began before (R35, R42); the very
end of the window is inside it, the model's reading (log 14, DEDUCED). With no listen timer running nothing happens (log
25). -/
def Obligations.StartAloneDeclaresSlotZero : Prop :=
  (∀ (s : State) (t own : Nat), s.slc.membership = .listen → s.slc.listenEnd = some t → ownSlot s = some own →
    ∃ u, exec .startAlone s = .next u ∧ u.now = max s.now t ∧ u.slc.membership = .member ∧
      u.slc.listenEnd = none ∧ u.slc.frameNumber = s.slc.frameNumber ∧ u.slc.peers = s.slc.peers ∧
      (∃ g, u.slc.timing = some g ∧ g.slot = 0 ∧ g.nominal = t ∧
        (s.slc.rx = none → u.slc.rx = none ∧ g.next = t + 40000) ∧
        (∀ r, s.slc.rx = some r →
          (t ≤ r.start → r.start ≤ t + 12000 →
            u.slc.rx = some { start := r.start, inSlot := some 0 } ∧ g.next = r.start + 40000 ∧ g.taken = true) ∧
          (r.start < t ∨ t + 12000 < r.start →
            u.slc.rx = some { start := r.start, inSlot := none } ∧ g.next = t + 40000))) ∧
      (own ≠ 0 → u.slc.tx = s.slc.tx) ∧
      (own = 0 → ∃ x, u.slc.tx = some x ∧ x.start = t ∧ x.bytes = encodeBlock (ownBlock 0 u)) ∧
      (s.rsq.state = .charge → s.settings.linkReady ≤ s.spt.lastGood.link → s.pru.lock = .locked →
        u.rsq = { s.rsq with state := .ready }) ∧
      (s.rsq.state ≠ .charge ∨ s.spt.lastGood.link < s.settings.linkReady ∨ s.pru.lock ≠ .locked → u.rsq = s.rsq) ∧
      u.pins = s.pins ∧ u.spt = s.spt ∧ u.pru = s.pru ∧ u.sdu = s.sdu ∧ u.evc = s.evc ∧ u.inc = s.inc ∧
      u.esa = s.esa ∧ u.cst = s.cst ∧ u.rqh = s.rqh ∧ u.cfl = s.cfl) ∧
  (∀ s : State, s.slc.membership ≠ .listen ∨ s.slc.listenEnd = none → exec .startAlone s = .next s)

/-- SLOT_START within a frame: the next slot opens at its nominal start, a MEMBER sends its block in its own slot, and
nothing else changes; an untimed station has no slots (R34, R35, R43, R49). At the frame end after slot 11 (R36) SLC's
work comes first (R55), and it fills the own entry (R50; log 16) and hands a change of membership on (R111). In the
order taken when the operand names none, ESA allocates, RSQ makes its zero-budget check (R118), EVC its window step
(R76), RQH follows every slot (R156) and a MEMBER in slot 0 sends; a request executed within the frame end follows RQH's
following (R158; log 8, 9). -/
def Obligations.SlotStartOpensSlot : Prop :=
  (∀ (k : FrameTaking) (s : State), s.slc.timing = none → exec (.slotStart k) s = .next s) ∧
  (∀ (k : FrameTaking) (s : State) (g : Timing), s.slc.timing = some g → g.slot < 11 →
    let opened : Timing :=
      { g with slot := g.slot + 1, nominal := g.next, next := g.next + 40000, taken := false }
    let s' := { s with now := max s.now g.next, slc := { s.slc with timing := some opened } }
    ((s.slc.membership ≠ .member ∨ ownSlot s ≠ some (g.slot + 1)) → exec (.slotStart k) s = .next s') ∧
    (s.slc.membership = .member → ownSlot s = some (g.slot + 1) →
      exec (.slotStart k) s = .next
        { s' with slc := { s.slc with
            timing := some { opened with taken := true }
            tx := some
              { start := g.next, bytes := encodeBlock (ownBlock (g.slot + 1) s'), quiesce := s.rsq.quiesce } } })) ∧
  (∀ (s : State) (g : Timing), s.slc.timing = some g → g.slot = 11 →
    let opened : Timing :=
      { g with slot := 0, nominal := g.next, next := g.next + 40000, taken := false, lastFrameEnd := some g.next }
    let s0 := { s with now := max s.now g.next, slc := { s.slc with timing := some opened } }
    let s1 := frameEndSlc g.next s0
    exec (.slotStart {}) s =
      .next (transmitAt g.next (follow (windowStep false false (exhaustTest (allocate s1))))) ∧
    exec (.slotStart { order := [.execute] }) s =
      .next (transmitAt g.next (windowStep false false (exhaustTest (allocate (executeStanding (follow s1)))))) ∧
    s1 = { s0 with
      inc := (setDemand s).inc, slc := s1.slc, rsq := { s.rsq with state := s1.rsq.state } } ∧
    (s1.slc.membership = s.slc.membership → s1.rsq = s.rsq) ∧
    (s1.slc.membership ≠ s.slc.membership → s1.rsq.state =
      if s.rsq.state = .charge ∧ s.settings.linkReady ≤ s.spt.lastGood.link ∧ s.pru.lock = .locked ∧ onLine s1 = true
      then .ready else s.rsq.state) ∧
    (∀ j, ownSlot s = some j → s.slc.peers.length = 12 →
      let shown := { s0 with inc := s1.inc, slc := { s0.slc with frameNumber := s1.slc.frameNumber } }
      peerEntry s1 j =
        { state := .live, missed := 0, heard := false, slow := some (ownBlock j shown).slow, candidate := none
          foreign := false, frameNumber := s1.slc.frameNumber, fast := (ownBlock j shown).fast
          sagPrev := (peerEntry s j).fast.sagNow })) ∧
  (∀ (instant : Nat) (s : State),
    (∀ g own, s.slc.membership = .member → s.slc.timing = some g → ownSlot s = some own → g.slot = own →
      g.nominal = instant → transmitAt instant s = { s with slc := { s.slc with
        timing := some { g with taken := true }
        tx := some { start := instant, bytes := encodeBlock (ownBlock own s), quiesce := s.rsq.quiesce } } }) ∧
    (s.slc.membership ≠ .member ∨ s.slc.timing = none ∨
        (∃ g, s.slc.timing = some g ∧ (ownSlot s ≠ some g.slot ∨ g.nominal ≠ instant)) →
      transmitAt instant s = s))

/-- A frame end: the aging of the peer table, the new budget and zero-budget count, the own demand, the frame number and
the membership, in every order of the other blocks' work; the sample path, the detection and the settings are untouched
(R36, R41, R44, R48, R54, R55, R58, R59, R67, R69; log 8). The misalignment run is settled and, when it stands at 2 and
the candidate wins, the grid is laid from the candidate's start; else slot 0 begins at the frame end (R46, R47; log
17). -/
def Obligations.FrameEndWork : Prop :=
  (∀ (k : FrameTaking) (s : State) (g : Timing), s.slc.timing = some g → g.slot = 11 →
    ∃ u, exec (.slotStart k) s = .next u ∧ u.now = max s.now g.next ∧
      u.esa.budget = budgetOf s.settings s.spt.lastGood.bus ∧
      u.esa.zeroCount = zeroCountAfter (budgetOf s.settings s.spt.lastGood.bus) s.esa.zeroCount ∧
      u.inc.demand = (setDemand s).inc.demand ∧ u.inc.pDem = 0 ∧ u.inc.nDem = 0 ∧ u.inc.ratio = u.esa.ratio ∧
      (onLine s = true →
        let plus := fun (x : Word) => min 4294967295 (x.toNat + 1)
        let live := fun (j : Nat) => j < 12 ∧ ownSlot s ≠ some j ∧ (peerEntry s j).age.state = .live
        let n := u.slc.frameNumber.toNat
        plus s.slc.frameNumber ≤ n ∧ (∀ j, live j → plus (peerEntry s j).frameNumber ≤ n) ∧
        (n = plus s.slc.frameNumber ∨ ∃ j, live j ∧ n = plus (peerEntry s j).frameNumber)) ∧
      (onLine s = false → u.slc.frameNumber = s.slc.frameNumber) ∧
      (∀ j, ownSlot s ≠ some j → peerEntry u j = (peerEntry s j).age) ∧
      (s.slc.membership = .listen → s.slc.heardFirst = true → u.slc.membership = .member) ∧
      (s.slc.membership = .member → s.slc.collisionMark = true →
        u.slc.collisionCount = satInc s.slc.collisionCount ∧ u.slc.collisionRun = s.slc.collisionRun + 1 ∧
        (s.slc.collisionRun = 2 → u.slc.membership = .mute ∧ u.slc.duplicate = true) ∧
        (s.slc.collisionRun < 2 → u.slc.membership = .member ∧ u.slc.duplicate = s.slc.duplicate)) ∧
      (s.slc.membership = .member → s.slc.collisionMark = false →
        u.slc.membership = .member ∧ u.slc.collisionRun = 0) ∧
      (let run := min 2 (s.slc.misalignRun + 1)
       let wins := fun (c : Candidate) => s.slc.frameNumber < c.frameNumber ∨
         (c.frameNumber = s.slc.frameNumber ∧ ∃ own, ownSlot s = some own ∧ c.slot < own)
       let plain := ∃ x, u.slc.timing = some x ∧ x.slot = 0 ∧ x.nominal = g.next ∧ x.next = g.next + 40000 ∧
         x.lastFrameEnd = some g.next ∧ x.gridStart = g.gridStart
       (onLine s = false → u.slc.misalignRun = s.slc.misalignRun ∧ u.slc.candidate = s.slc.candidate ∧ plain) ∧
       (onLine s = true → u.slc.candidate = none) ∧
       (onLine s = true → s.slc.candidate = none → u.slc.misalignRun = 0 ∧ plain) ∧
       (∀ c, onLine s = true → s.slc.candidate = some c → run < 2 ∨ ¬ wins c → u.slc.misalignRun = run ∧ plain) ∧
       (∀ c, onLine s = true → s.slc.candidate = some c → run = 2 → wins c →
         let n := (g.next - c.start) / 40000
         u.slc.misalignRun = 0 ∧ ∃ x, u.slc.timing = some x ∧ x.slot = (c.slot + n) % 12 ∧
           x.nominal = c.start + n * 40000 ∧ x.next = c.start + (n + 1) * 40000 ∧ x.lastFrameEnd = some g.next ∧
           x.gridStart = c.start)) ∧
      u.pins = s.pins ∧ u.spt = s.spt ∧ u.pru = s.pru ∧ u.sdu = s.sdu ∧ u.cfl = s.cfl) ∧
  (∀ e : PeerEntry,
    (e.heard = true → e.age = { e with heard := false }) ∧
    (e.heard = false → e.state = .live → e.age = { e with state := .held, missed := 1 }) ∧
    (e.heard = false → e.state = .held → e.missed < 4 → e.age = { e with missed := e.missed + 1 }) ∧
    (e.heard = false → e.state = .held → 4 ≤ e.missed → e.age = PeerEntry.absent) ∧
    (e.heard = false → e.state = .absent → e.age = PeerEntry.absent))

/-- The peer table keeps twelve entries, LIVE ones with no missed frame end, HELD ones with one to four, ABSENT ones
cleared, through every step (R50, R54). -/
def Obligations.PeerTableSoundKept : Prop := ∀ s u : State, PeerTableSound s → step s = .next u → PeerTableSound u

/-- The positions of R180, by which a block is assembled and any received bytes are decoded; which block is valid, and
which malformed (R37). A block so assembled is valid and is decoded to the contents it was assembled from (R37, R180).
The CRC bit by bit, 29B1h over the nine check bytes; it is FFFFh over no bytes, and 0000h once carried on through its
own two bytes (R179). The contents of the own block and the values they come from (R49), with their codes (R15, R109,
R155), the announced class (R84), the event class (R78) and r_min percent (R29). -/
def Obligations.BlockDecodesAsAssembled : Prop :=
  (∀ (own : Nat) (s : State),
    let b := ownBlock own s
    b.kind = 0 ∧ b.slot = BitVec.ofNat 4 own ∧ b.frameNumber = s.slc.frameNumber ∧
    b.slow =
      { kind := 0, cls := s.evc.override.getD (BitVec.ofNat 2 s.settings.cls)
        rating := BitVec.ofNat 16 s.settings.rating, digest := s.cfl.digest, defaultsFlag := s.cfl.defaultsFlag } ∧
    b.fast =
      { restorer := (match s.rsq.state with
          | .off => 0 | .charge => 1 | .ready => 2 | .inject => 3 | .release => 4 | .lockout => 5)
        lock := (match s.pru.lock with | .acquire => 0 | .locked => 1 | .holdover => 2)
        active := decide (s.rsq.state = .inject ∨ s.rsq.state = .release)
        sagNow := s.sdu.flags
        demand := BitVec.ofNat 16 s.inc.demand
        grant := BitVec.ofNat 16 s.esa.grant
        bus := BitVec.ofNat 16 s.spt.lastGood.bus
        link := BitVec.ofNat 16 s.spt.lastGood.link
        eventLow := s.rsq.eventCounter.extractLsb' 0 16
        full := BitVec.ofNat 4 (min 15 s.cst.full)
        rMinPercent := BitVec.ofNat 8 (if s.sdu.record.isOpen = true then min 100 (depth s.sdu.record / 10) else 100)
        eventClass :=
          if s.rsq.state = .inject ∨ s.rsq.state = .release then
            (match s.evc.eventClass with | .pending => 0 | .grid => 1 | .localOnly => 2)
          else 0
        resag := s.rsq.resag
        quiesce := s.rsq.quiesce
        mute := decide (s.slc.membership = .mute)
        request := s.rqh.reply.requester ++ s.rqh.reply.tag ++
          (match s.rqh.reply.status with
            | .none => 0#4 | .ok => 1#4 | .badCode => 2#4 | .badArg => 3#4 | .refused => 4#4 | .freeTooMany => 5#4) ++
          s.rqh.reply.data }) ∧
  (∀ b : Block, b.slow.kind = b.kind → blockValid (encodeBlock b) = true ∧ decodeBlock (encodeBlock b) = b) ∧
  crc16 [] = 0xFFFF#16 ∧ (∀ bytes : List Byte, crc16 (bytes ++ halfBytes (crc16 bytes)) = 0) ∧
  (∀ (r : Half) (bit : Bool), crcBit r bit = if r.getLsbD 15 ≠ bit then (r <<< 1) ^^^ 0x1021#16 else r <<< 1) ∧
  (∀ (bytes : List Byte) (b : Byte), crc16 (bytes ++ [b]) =
    let bit := fun (n : Nat) (r : Half) => crcBit r (b.getLsbD n)
    bit 0 (bit 1 (bit 2 (bit 3 (bit 4 (bit 5 (bit 6 (bit 7 (crc16 bytes))))))))) ∧
  crc16 [0x31, 0x32, 0x33, 0x34, 0x35, 0x36, 0x37, 0x38, 0x39] = 0x29B1#16 ∧
  (let placed := fun (bytes : List Byte) (b : Block) =>
    let byte := fun (n : Nat) => bytes.getD n 0
    let half := fun (n : Nat) => byte n ++ byte (n + 1)
    (byte 1).extractLsb' 4 4 = b.kind ∧ (byte 1).extractLsb' 0 4 = b.slot ∧ half 2 ++ half 4 = b.frameNumber ∧
    (byte 6).extractLsb' 5 3 = b.fast.restorer ∧ (byte 6).extractLsb' 3 2 = b.fast.lock ∧
    (byte 6).extractLsb' 1 2 = b.slow.cls ∧ (byte 6).getLsbD 0 = b.slow.defaultsFlag ∧
    (byte 7).getLsbD 7 = b.fast.active ∧ (byte 7).getLsbD 6 = b.fast.sagNow.a ∧
    (byte 7).getLsbD 5 = b.fast.sagNow.b ∧ (byte 7).getLsbD 4 = b.fast.sagNow.c ∧
    (byte 7).getLsbD 3 = b.fast.resag ∧ (byte 7).getLsbD 2 = b.fast.quiesce ∧
    (byte 7).extractLsb' 0 2 = b.fast.eventClass ∧ half 8 = b.fast.demand ∧ half 10 = b.slow.rating ∧
    half 12 = b.fast.grant ∧ half 14 = b.fast.bus ∧ half 16 = b.fast.link ∧ half 18 = b.slow.digest ∧
    half 20 = b.fast.eventLow ∧ (byte 22).extractLsb' 4 4 = b.fast.full ∧ (byte 22).getLsbD 0 = b.fast.mute ∧
    byte 23 = b.fast.rMinPercent ∧ half 24 ++ half 26 ++ half 28 = b.fast.request
   (∀ bytes : List Byte, placed bytes (decodeBlock bytes) ∧
      (decodeBlock bytes).slow.kind = (decodeBlock bytes).kind) ∧
   ∀ b : Block, placed (encodeBlock b) b ∧ (encodeBlock b).length = 32 ∧ (encodeBlock b).getD 0 0 = 0xA5#8 ∧
      ((encodeBlock b).getD 22 0).extractLsb' 1 3 = 0 ∧
      (encodeBlock b).getD 30 0 ++ (encodeBlock b).getD 31 0 = crc16 (((encodeBlock b).drop 1).take 29)) ∧
  (∀ bytes : List Byte, blockValid bytes = true ↔ bytes.length = 32 ∧ bytes.getD 0 0 = 0xA5#8 ∧
    crc16 ((bytes.drop 1).take 29) = bytes.getD 30 0 ++ bytes.getD 31 0) ∧
  (∀ b : Block, blockMalformed b = true ↔ (b.kind ≠ 0 ∧ b.kind ≠ 1) ∨ 12 ≤ b.slot.toNat)

/-! Requests. -/

/-- The parts of a request by their positions: target slot, tag, code, argument (R154, R180). Which requests are
executable: those confirmed, addressed to the own slot, of a known gateway, past their baseline, of another tag than the
last; and which one stands: the executable one of the lowest slot, until one has been executed at the frame end (R157,
R158; log 9). The following at a frame end: the own slot and a HELD entry leave what is kept, a LIVE one brings its
field, an ABSENT one drops the previous request (R156). An execution within the frame end is the command of the standing
request (R158; log 9). -/
def Obligations.StandingRequest : Prop :=
  (∀ f : BitVec 48, requestTarget f = (f.extractLsb' 40 8).toNat ∧ requestTag f = f.extractLsb' 36 4 ∧
    requestCode f = f.extractLsb' 32 4 ∧ requestArg f = f.extractLsb' 0 32) ∧
  (∀ (s : State) (j : Nat), followOf s j = s.rqh.slots.getD j Follow.initial ∧
    peerEntry s j = s.slc.peers.getD j PeerEntry.absent) ∧
  (∀ (s : State) (g : Nat) (f : BitVec 48), executable s g = some f ↔
    (followOf s g).previous = some f ∧ (followOf s g).confirmed = true ∧ (followOf s g).baseline = none ∧
    (followOf s g).baselinePending = false ∧ (followOf s g).lastTag ≠ some (requestTag f) ∧ requestCode f ≠ 0 ∧
    ownSlot s = some (requestTarget f) ∧ ∃ w, (peerEntry s g).slow = some w ∧ w.kind = 1) ∧
  (∀ (s : State) (g : Nat) (f : BitVec 48), standing s = some (g, f) ↔
    s.rqh.execOpen = true ∧ g < 12 ∧ executable s g = some f ∧ ∀ j, j < g → executable s j = none) ∧
  (∀ (s : State) (g : Nat) (tag code : BitVec 4) (arg : Option Word), stands g tag code arg s = true ↔
    ∃ f, standing s = some (g, f) ∧ requestTag f = tag ∧ requestCode f = code ∧
      ∀ a, arg = some a → requestArg f = a) ∧
  (∀ (g : Nat) (tag : BitVec 4) (st : Status) (d : Word) (s : State), standing (answer g tag st d s) = none) ∧
  (∀ (f : BitVec 48) (x : Follow),
    (x.heard f).previous = some f ∧ ((x.heard f).confirmed = true ↔ x.previous = some f) ∧
    (x.baselinePending = true → (x.heard f).baseline = some f ∧ (x.heard f).baselinePending = false) ∧
    (x.baselinePending = false → x.baseline = some f → (x.heard f).baseline = some f) ∧
    (x.baselinePending = false → x.baseline ≠ some f → (x.heard f).baseline = none) ∧
    (x.heard f).lastTag = x.lastTag ∧ x.dropped = { x with previous := none, confirmed := false }) ∧
  (∀ s : State, follow s = { s with rqh := { s.rqh with slots := (follow s).rqh.slots, execOpen := true } } ∧
    (follow s).rqh.slots.length = s.rqh.slots.length ∧
    ∀ (j : Nat) (x : Follow), s.rqh.slots[j]? = some x →
      let kept := fun (y : Follow) => (follow s).rqh.slots[j]? = some y
      (ownSlot s = some j → kept x) ∧
      (ownSlot s ≠ some j → (peerEntry s j).state = .live → kept (x.heard (peerEntry s j).fast.request)) ∧
      (ownSlot s ≠ some j → (peerEntry s j).state = .held → kept x) ∧
      (ownSlot s ≠ some j → (peerEntry s j).state = .absent → kept x.dropped)) ∧
  (∀ s : State, standing s = none → executeStanding s = s) ∧
  (∀ (s : State) (g : Nat) (f : BitVec 48), standing s = some (g, f) →
    let tag := requestTag f
    let arg := requestArg f
    let executes := fun (c : Instr) => exec c s = .next (executeStanding s)
    (requestCode f = 1 → executes (.readItem g tag arg)) ∧
    (requestCode f = 2 → executes (.readRecord g tag (arg.extractLsb' 16 16) (arg.extractLsb' 0 16))) ∧
    (requestCode f = 3 → executes (.readPeer g tag (arg.extractLsb' 16 16) (arg.extractLsb' 0 16))) ∧
    (requestCode f = 4 → executes (.freeRecords g tag arg)) ∧ (requestCode f = 5 → executes (.clearLockout g tag)) ∧
    (requestCode f = 6 → executes (.testCapture g tag)) ∧ (requestCode f = 7 → executes (.softReset g tag)) ∧
    (8 ≤ (requestCode f).toNat → executes (.badCodeRequest g tag (requestCode f))))

/-- The standing read requests and a request of no code are answered with the values as they stand, once, and change
nothing else; one that does not stand has no effect (R158 to R161; log 9). -/
def Obligations.ReadRequestsAnswered : Prop :=
  ∀ (g : Nat) (tag : BitVec 4) (s : State),
    let replied := fun (status : Status) (data : Word) =>
      { s with rqh :=
          { reply := { requester := BitVec.ofNat 8 g, tag := tag, status := status, data := data }
            slots := s.rqh.slots.modify g (fun x => { x with lastTag := some tag })
            execOpen := false } }
    (∀ item, stands g tag 1 (some item) s = true →
      exec (.readItem g tag item) s = .next
        (match itemWord s item with | some d => replied .ok d | none => replied .badArg 0)) ∧
    (∀ slot word, stands g tag 2 (some (slot ++ word)) s = true →
      exec (.readRecord g tag slot word) s = .next
        (replied (recordReply s.cst slot.toNat word.toNat).1 (recordReply s.cst slot.toNat word.toNat).2)) ∧
    (∀ slot field, stands g tag 3 (some (slot ++ field)) s = true →
      exec (.readPeer g tag slot field) s = .next
        (replied (peerReply s slot.toNat field.toNat).1 (peerReply s slot.toNat field.toNat).2)) ∧
    (∀ code, 8 ≤ code.toNat → stands g tag code none s = true →
      exec (.badCodeRequest g tag code) s = .next (replied .badCode 0)) ∧
    (∀ item, stands g tag 1 (some item) s = false → exec (.readItem g tag item) s = .next s) ∧
    (∀ slot word, stands g tag 2 (some (slot ++ word)) s = false → exec (.readRecord g tag slot word) s = .next s) ∧
    (∀ slot field, stands g tag 3 (some (slot ++ field)) s = false → exec (.readPeer g tag slot field) s = .next s) ∧
    (∀ code, stands g tag code none s = false ∨ code.toNat < 8 → exec (.badCodeRequest g tag code) s = .next s)

/-- The data words of READ_ITEM (R159), with the codes of the lock state (R15), of the membership (R56) and of the
source and reason of the settings (R182); READ_RECORD's checks in their order (R160), over the slots and record cycles
of the layouts (R135), the states of the slots (R136) and the model's own addresses (log 22, 23), and the record words:
four bytes of the summary area, most significant first, then three words a set, two channels each (R151, R181); and
READ_PEER's checks and the 28 fields of an entry (R161). -/
def Obligations.ReadReplies : Prop :=
  (∀ s : State,
    itemWord s 0 = some (s.slc.lineErrors.setWidth 32) ∧ itemWord s 1 = some (s.cst.missed.setWidth 32) ∧
    itemWord s 3 = some s.rsq.eventCounter ∧ itemWord s 4 = some (BitVec.ofNat 32 s.pru.fEst) ∧
    (∃ d, itemWord s 5 = some d ∧ d.extractLsb' 16 16 = s.pru.lock.code.setWidth 16 ∧
      d.extractLsb' 0 16 = s.pru.goodCount) ∧
    itemWord s 6 = some (s.rsq.overEndCount.setWidth 32) ∧ itemWord s 7 = some (s.spt.faultCount.setWidth 32) ∧
    itemWord s 8 = some (s.rsq.lastEndCause.code.setWidth 32) ∧
    (∃ d, itemWord s 9 = some d ∧ d.extractLsb' 16 16 = BitVec.ofNat 16 s.cst.full ∧
      d.extractLsb' 0 16 = BitVec.ofNat 16 s.cst.oldest) ∧
    (∃ d, itemWord s 10 = some d ∧ d.extractLsb' 30 2 = s.slc.membership.code ∧
      d.extractLsb' 29 1 = BitVec.ofBool s.slc.duplicate ∧ d.extractLsb' 24 5 = 0 ∧
      d.extractLsb' 16 8 = s.slc.collisionCount ∧ d.extractLsb' 0 16 = s.slc.misalignCount) ∧
    (∃ d, itemWord s 2 = some d ∧ d.extractLsb' 30 2 = s.cfl.source.code ∧ d.extractLsb' 28 2 = s.cfl.reason.code ∧
      d.extractLsb' 27 1 = BitVec.ofBool s.cfl.badStrap ∧ d.extractLsb' 26 1 = BitVec.ofBool s.cfl.clamped ∧
      d.extractLsb' 25 1 = BitVec.ofBool s.cfl.layoutHeld ∧ d.extractLsb' 20 4 = BitVec.ofNat 4 s.cfl.entriesInForce ∧
      d.extractLsb' 16 4 = s.cfl.strap ∧ d.extractLsb' 0 12 = s.cfl.voidMask) ∧
    (∀ item : Word, 11 ≤ item.toNat → itemWord s item = none)) ∧
  (∀ (c : Cst) (slot word : Nat),
    (c.layout = none → recordReply c slot word = (.refused, 0)) ∧
    (∀ l, c.layout = some l → l.slots ≤ slot → recordReply c slot word = (.badArg, 0)) ∧
    (∀ l, c.layout = some l → slot < l.slots → 15 + 3 * 128 * l.cycles < word →
      recordReply c slot word = (.badArg, 0)) ∧
    (∀ l, c.layout = some l → slot < l.slots → word ≤ 15 + 3 * 128 * l.cycles → slotState c l slot = .free →
      recordReply c slot word = (.refused, 0)) ∧
    (∀ l, c.layout = some l → slot < l.slots → word ≤ 15 + 3 * 128 * l.cycles → slotState c l slot ≠ .free →
      recordReply c slot word = (.ok, recordWord c l slot word))) ∧
  (∀ (c : Cst) (l : Layout) (slot w : Nat), w < 16 →
    let byte := fun (n : Nat) => Memory.read c.mem (summaryAddr slot + 4 * w + n)
    recordWord c l slot w = byte 0 ++ byte 1 ++ byte 2 ++ byte 3) ∧
  (∀ (c : Cst) (l : Layout) (slot q : Nat) (x : CapturedSet),
    (∀ n : Fin 12, Memory.read c.mem (setAddr l slot q + n) = (setBytes x).getD n 0) →
    let half := fun (v : Int) => BitVec.ofInt 16 v
    recordWord c l slot (16 + 3 * q) = half x.v.a ++ half x.v.b ∧
    recordWord c l slot (16 + 3 * q + 1) = half x.v.c ++ half x.i.a ∧
    recordWord c l slot (16 + 3 * q + 2) = half x.i.b ++ half x.i.c) ∧
  (∀ (c : Cst) (l : Layout) (n : Nat), slotState c l n =
    if (n + l.slots - c.oldest) % l.slots < c.full then .full
    else if n = c.fill ∧ c.filling ≠ none then .filling
    else .free) ∧
  (∀ (l : Layout) (slot q : Nat), setAddr l slot q = 12 * (slot * (128 * l.cycles) + q) ∧
    summaryAddr slot = 98304 + 64 * slot) ∧
  [Layout.code0, .code1, .code2].map Layout.slots = [4, 8, 16] ∧
  [Layout.code0, .code1, .code2].map Layout.cycles = [16, 8, 4] ∧
  [0, 1, 2].map layoutOf = [.code0, .code1, .code2] ∧ (∀ l : Layout, l.sets = 128 * l.cycles) ∧
  [LockState.acquire, .locked, .holdover].map LockState.code = [0, 1, 2] ∧
  [Membership.down, .listen, .member, .mute].map Membership.code = [0, 1, 2, 3] ∧
  [Source.loading, .image, .defaults].map Source.code = [0, 1, 2] ∧
  [Reason.none, .noAnswer, .badFormat, .badCrc].map Reason.code = [0, 1, 2, 3] ∧
  (∀ (s : State) (slot field : Nat), 12 ≤ slot ∨ 28 ≤ field → peerReply s slot field = (.badArg, 0)) ∧
  (∀ (s : State) (slot : Nat), slot < 12 →
    let e := peerEntry s slot
    let reads := fun (field : Nat) (value : Nat) =>
      ∃ d, peerReply s slot field = (.ok, d) ∧ d.toNat = value
    let flag := fun (field : Nat) (b : Bool) => reads field (if b = true then 1 else 0)
    let mask := fun (field : Nat) (m : Phases Bool) => reads field
      ((if m.a = true then 1 else 0) + (if m.b = true then 2 else 0) + (if m.c = true then 4 else 0))
    reads 0 (match e.state with | .absent => 0 | .live => 1 | .held => 2) ∧
    (e.missed < 4294967296 → reads 1 e.missed) ∧ flag 2 e.slow.isSome ∧ flag 3 e.foreign ∧
    (e.slow = none → reads 4 0 ∧ reads 5 0 ∧ reads 6 0 ∧ reads 7 0 ∧ reads 8 0) ∧
    (∀ w, e.slow = some w → reads 4 w.kind.toNat ∧ reads 5 w.cls.toNat ∧ reads 6 w.rating.toNat ∧
      reads 7 w.digest.toNat ∧ flag 8 w.defaultsFlag) ∧
    reads 9 e.frameNumber.toNat ∧ reads 10 e.fast.restorer.toNat ∧ reads 11 e.fast.lock.toNat ∧
    flag 12 e.fast.active ∧ mask 13 e.fast.sagNow ∧ mask 14 e.sagPrev ∧ reads 15 e.fast.demand.toNat ∧
    reads 16 e.fast.grant.toNat ∧ reads 17 e.fast.bus.toNat ∧ reads 18 e.fast.link.toNat ∧
    reads 19 e.fast.eventLow.toNat ∧ reads 20 e.fast.full.toNat ∧ reads 21 e.fast.rMinPercent.toNat ∧
    reads 22 e.fast.eventClass.toNat ∧ flag 23 e.fast.resag ∧ flag 24 e.fast.quiesce ∧ flag 25 e.fast.mute ∧
    reads 26 (e.fast.request.toNat / 2 ^ 32) ∧ reads 27 (e.fast.request.toNat % 2 ^ 32))

/-- FREE_RECORDS frees FULL slots from the oldest pointer and answers with the number freed (R147, R162). The premise is
the agreement of the ring, which every step keeps (`RingAgreesKept`). It acts as the standing request, once: the slot's
last executed tag is set and the frame end's one execution is used; one that does not stand has no effect (R157, R158;
log 9). -/
def Obligations.FreeRecordsFreesOldest : Prop :=
  (∀ (g : Nat) (tag : BitVec 4) (n : Word) (s : State), stands g tag 4 (some n) s = true → RingAgrees s →
    ∃ u, exec (.freeRecords g tag n) s = .next u ∧ u.rqh.reply.requester = BitVec.ofNat 8 g ∧
      u.rqh.reply.tag = tag ∧ u = { s with cst := u.cst, rqh := u.rqh } ∧
      u.rqh = { reply := u.rqh.reply, slots := s.rqh.slots.modify g (fun x => { x with lastTag := some tag })
                execOpen := false } ∧
      u.cst = { s.cst with oldest := u.cst.oldest, full := u.cst.full } ∧
      (n = 0 → u.cst = s.cst ∧ u.rqh.reply.status = .badArg ∧ u.rqh.reply.data = 0) ∧
      (n ≠ 0 → n.toNat ≤ s.cst.full →
        u.cst.full = s.cst.full - n.toNat ∧ u.rqh.reply.status = .ok ∧ u.rqh.reply.data = n ∧
        ∀ l, s.cst.layout = some l → u.cst.oldest = (s.cst.oldest + n.toNat) % l.slots) ∧
      (s.cst.full < n.toNat →
        u.cst.full = 0 ∧ u.cst.oldest = s.cst.fill ∧ u.rqh.reply.status = .freeTooMany ∧
        u.rqh.reply.data.toNat = s.cst.full) ∧
      (∀ l j, s.cst.layout = some l → j < l.slots → slotState u.cst l j =
        if (j + l.slots - s.cst.oldest) % l.slots < min n.toNat s.cst.full then .free else slotState s.cst l j)) ∧
  (∀ (g : Nat) (tag : BitVec 4) (n : Word) (s : State), stands g tag 4 (some n) s = false →
    exec (.freeRecords g tag n) s = .next s)

/-- CLEAR_LOCKOUT by the restorer's state, the fault inputs and ENABLE; the data is the state code afterwards (R131,
R163). It acts as the standing request, once: the slot's last executed tag is set and the frame end's one execution is
used; one that does not stand has no effect (R157, R158; log 9). -/
def Obligations.ClearLockoutByState : Prop :=
  (∀ (g : Nat) (tag : BitVec 4) (s : State), stands g tag 5 none s = true →
    ∃ u, exec (.clearLockout g tag) s = .next u ∧ u = { s with rsq := u.rsq, rqh := u.rqh } ∧
      u.rqh = { reply := u.rqh.reply, slots := s.rqh.slots.modify g (fun x => { x with lastTag := some tag })
                execOpen := false } ∧
      u.rqh.reply.requester = BitVec.ofNat 8 g ∧ u.rqh.reply.tag = tag ∧
      u.rqh.reply.data = u.rsq.state.code.setWidth 32 ∧
      (s.rsq.state = .lockout → faultActive s = false →
        u.rsq = { s.rsq with overEnds := [], state := if s.pins.enable then .charge else .off } ∧
        u.rqh.reply.status = .ok) ∧
      (s.rsq.state = .lockout → faultActive s = true → u.rsq = s.rsq ∧ u.rqh.reply.status = .refused) ∧
      (s.rsq.state ≠ .lockout → u.rsq = s.rsq ∧ u.rqh.reply.status = .ok)) ∧
  (∀ (g : Nat) (tag : BitVec 4) (s : State), stands g tag 5 none s = false → exec (.clearLockout g tag) s = .next s) ∧
  [RestorerState.off, .charge, .ready, .inject, .release, .lockout].map RestorerState.code = [0, 1, 2, 3, 4, 5]

/-- TEST_CAPTURE is refused before the layout, during an event and while a slot fills; else it takes the next event
number, and opens in the fill slot, with the history as its first record cycle and its summary words at 0, or is counted
missed (R115, R138, R148, R150, R163; log 23). It acts as the standing request, once: the slot's last executed tag is
set and the frame end's one execution is used; one that does not stand has no effect (R157, R158; log 9). -/
def Obligations.TestCaptureByState : Prop :=
  (∀ (g : Nat) (tag : BitVec 4) (s : State), stands g tag 6 none s = true →
    ∃ u, exec (.testCapture g tag) s = .next u ∧ u = { s with rsq := u.rsq, cst := u.cst, rqh := u.rqh } ∧
      u.rqh = { reply := u.rqh.reply, slots := s.rqh.slots.modify g (fun x => { x with lastTag := some tag })
                execOpen := false } ∧
      u.rqh.reply.requester = BitVec.ofNat 8 g ∧ u.rqh.reply.tag = tag ∧
      (s.cst.layout = none ∨ eventActive s = true ∨ s.cst.filling.isSome = true →
        u.rsq = s.rsq ∧ u.cst = s.cst ∧ u.rqh.reply.status = .refused ∧ u.rqh.reply.data = 0) ∧
      (∀ l, s.cst.layout = some l → eventActive s = false → s.cst.filling = none →
        u.rsq = { s.rsq with eventCounter := nextEvent s.rsq.eventCounter } ∧ u.rqh.reply.status = .ok ∧
        u.rqh.reply.data = nextEvent s.rsq.eventCounter ∧ u.rqh.reply.data ≠ 0 ∧
        (l.slots ≤ s.cst.full → u.cst = { s.cst with missed := satInc s.cst.missed }) ∧
        (s.cst.full < l.slots →
          u.cst = { s.cst with
            mem := u.cst.mem
            filling := some
              { making :=
                  { onset :=
                      { event := nextEvent s.rsq.eventCounter, frameNumber := s.slc.frameNumber
                        position := framePosition s, refAge := s.pru.ref.age }
                    duration := 0, ended := none, classed := none }
                written := 128, tail := none, truncated := false, delayed := false, test := true } } ∧
          (MemoryCanonical s → RingAgrees s →
            (∀ (q : Fin 128) (n : Fin 12), Memory.read u.cst.mem (setAddr l s.cst.fill q + n) =
              (setBytes (s.cst.history.getD q ⟨Phases.same 0, Phases.same 0⟩)).getD n 0) ∧
            (∀ w : Fin 16, recordWord u.cst l s.cst.fill w = 0) ∧
            (∀ a, (a < setAddr l s.cst.fill 0 ∨ setAddr l s.cst.fill 128 ≤ a) →
              (a < summaryAddr s.cst.fill ∨ summaryAddr s.cst.fill + 64 ≤ a) →
              Memory.read u.cst.mem a = Memory.read s.cst.mem a))))) ∧
  (∀ (g : Nat) (tag : BitVec 4) (s : State), stands g tag 6 none s = false → exec (.testCapture g tag) s = .next s)

/-- SOFT_RESET sets the quiesce-pending flag and is answered OK with data 0; already set, nothing but the reply changes
(R132, R164). It acts as the standing request, once: the slot's last executed tag is set and the frame end's one
execution is used; one that does not stand has no effect (R157, R158; log 9). -/
def Obligations.SoftResetSetsQuiesce : Prop :=
  (∀ (g : Nat) (tag : BitVec 4) (s : State), stands g tag 7 none s = true →
    ∃ u, exec (.softReset g tag) s = .next u ∧ u = { s with rsq := u.rsq, rqh := u.rqh } ∧
      u.rqh =
        { reply := { requester := BitVec.ofNat 8 g, tag := tag, status := .ok, data := 0 }
          slots := s.rqh.slots.modify g (fun x => { x with lastTag := some tag })
          execOpen := false } ∧
      (s.rsq.quiesce = true → u.rsq = s.rsq) ∧
      (s.rsq.quiesce = false → u.rsq = { s.rsq with quiesce := true, sentSince := false })) ∧
  (∀ (g : Nat) (tag : BitVec 4) (s : State), stands g tag 7 none s = false → exec (.softReset g tag) s = .next s)

/-- The properties of Safety hold at power-on. -/
def Obligations.SafeAtPowerOn : Prop :=
  MemoryCanonical State.reset ∧ OutputsAgree State.reset ∧ RingAgrees State.reset ∧ FractionsBounded State.reset ∧
    ReadinessHolds State.reset ∧ ConfigurationSound State.reset ∧ PeerTableSound State.reset

end Statements
end

