-- ==== Sys2Proof/Laws/State.lean ====
section
/-! SUPPORT. Reads of the state after the updates that stand beside it: the clock, and the state at power-on. -/

namespace Sys2Proof.Machine

variable (s : State)

/-- Two states with the same blocks, inputs, instant and queue are one. -/
theorem state_ext {s u : State} (pins : s.pins = u.pins) (now : s.now = u.now) (spt : s.spt = u.spt)
    (pru : s.pru = u.pru) (sdu : s.sdu = u.sdu) (evc : s.evc = u.evc) (inc : s.inc = u.inc) (rsq : s.rsq = u.rsq)
    (esa : s.esa = u.esa) (slc : s.slc = u.slc) (cst : s.cst = u.cst) (rqh : s.rqh = u.rqh) (cfl : s.cfl = u.cfl)
    (pending : s.pending = u.pending) : s = u := by
  cases s
  cases u
  simp_all

@[simp] theorem moveTo_now (t : Nat) : (s.moveTo t).now = max s.now t := rfl

@[simp] theorem moveTo_frame (t : Nat) :
    (s.moveTo t).pins = s.pins ∧ (s.moveTo t).spt = s.spt ∧ (s.moveTo t).pru = s.pru ∧ (s.moveTo t).sdu = s.sdu ∧
    (s.moveTo t).evc = s.evc ∧ (s.moveTo t).inc = s.inc ∧ (s.moveTo t).rsq = s.rsq ∧ (s.moveTo t).esa = s.esa ∧
    (s.moveTo t).slc = s.slc ∧ (s.moveTo t).cst = s.cst ∧ (s.moveTo t).rqh = s.rqh ∧ (s.moveTo t).cfl = s.cfl ∧
    (s.moveTo t).pending = s.pending := by
  simp [State.moveTo]

/-- Time that has come already does not move. -/
theorem moveTo_of_le {t : Nat} (h : t ≤ s.now) : s.moveTo t = s := by
  unfold State.moveTo
  rw [Nat.max_eq_left h]

@[simp] theorem reset_pins : State.reset.pins = Pins.initial := rfl
@[simp] theorem reset_now : State.reset.now = 0 := rfl
@[simp] theorem reset_spt : State.reset.spt = Spt.initial := rfl
@[simp] theorem reset_pru : State.reset.pru = Pru.initial := rfl
@[simp] theorem reset_sdu : State.reset.sdu = Sdu.initial := rfl
@[simp] theorem reset_evc : State.reset.evc = Evc.initial := rfl
@[simp] theorem reset_inc : State.reset.inc = Inc.initial := rfl
@[simp] theorem reset_rsq : State.reset.rsq = Rsq.initial := rfl
@[simp] theorem reset_esa : State.reset.esa = Esa.initial := rfl
@[simp] theorem reset_slc : State.reset.slc = Slc.initial := rfl
@[simp] theorem reset_cst : State.reset.cst = Cst.initial := rfl
@[simp] theorem reset_rqh : State.reset.rqh = Rqh.initial := rfl
@[simp] theorem reset_cfl : State.reset.cfl = Cfl.initial := rfl
@[simp] theorem reset_pending : State.reset.pending = [] := rfl

/-! Views read only the blocks that they name. -/

/-- `eventActive` reads RSQ's state alone. -/
theorem eventActive_congr {s s' : State} (h : s'.rsq.state = s.rsq.state) : eventActive s' = eventActive s := by
  simp [eventActive, h]

/-- `ownSlot` reads CFL alone. -/
theorem ownSlot_congr {s s' : State} (h : s'.cfl = s.cfl) : ownSlot s' = ownSlot s := by
  simp [ownSlot, h]

/-- `onLine` reads the membership alone. -/
theorem onLine_congr {s s' : State} (h : s'.slc.membership = s.slc.membership) : onLine s' = onLine s := by
  simp [onLine, h]

/-- An event is active in INJECT and in RELEASE (R109). -/
theorem eventActive_iff : eventActive s = true ↔ s.rsq.state = .inject ∨ s.rsq.state = .release := by
  simp [eventActive]

/-- A place on the line is MEMBER or MUTE (R111). -/
theorem onLine_iff : onLine s = true ↔ s.slc.membership = .member ∨ s.slc.membership = .mute := by
  simp [onLine]

end Sys2Proof.Machine
end

