-- ==== Sys2Proof/Laws/Frames.lean ====
section
/-! SUPPORT. Frames: for each shared operation, the blocks of the state that it leaves as they are. -/

namespace Sys2Proof.Machine

variable (s : State)

@[simp] theorem readyTest_frame :
    (readyTest s).pins = s.pins ∧ (readyTest s).now = s.now ∧ (readyTest s).spt = s.spt ∧
    (readyTest s).pru = s.pru ∧ (readyTest s).sdu = s.sdu ∧ (readyTest s).evc = s.evc ∧ (readyTest s).inc = s.inc ∧
    (readyTest s).esa = s.esa ∧ (readyTest s).slc = s.slc ∧ (readyTest s).cst = s.cst ∧ (readyTest s).rqh = s.rqh ∧
    (readyTest s).cfl = s.cfl ∧ (readyTest s).pending = s.pending := by
  unfold readyTest; dsimp only; (repeat' split) <;> simp

@[simp] theorem lockHanded_frame :
    (lockHanded s).pins = s.pins ∧ (lockHanded s).now = s.now ∧ (lockHanded s).spt = s.spt ∧
    (lockHanded s).pru = s.pru ∧ (lockHanded s).sdu = s.sdu ∧ (lockHanded s).evc = s.evc ∧
    (lockHanded s).inc = s.inc ∧ (lockHanded s).esa = s.esa ∧ (lockHanded s).slc = s.slc ∧
    (lockHanded s).cst = s.cst ∧ (lockHanded s).rqh = s.rqh ∧ (lockHanded s).cfl = s.cfl ∧
    (lockHanded s).pending = s.pending := by
  unfold lockHanded; dsimp only; (repeat' split) <;> simp

@[simp] theorem serviceTest_frame :
    (serviceTest s).pins = s.pins ∧ (serviceTest s).now = s.now ∧ (serviceTest s).spt = s.spt ∧
    (serviceTest s).pru = s.pru ∧ (serviceTest s).sdu = s.sdu ∧ (serviceTest s).evc = s.evc ∧
    (serviceTest s).inc = s.inc ∧ (serviceTest s).esa = s.esa ∧ (serviceTest s).slc = s.slc ∧
    (serviceTest s).cst = s.cst ∧ (serviceTest s).rqh = s.rqh ∧ (serviceTest s).cfl = s.cfl ∧
    (serviceTest s).pending = s.pending := by
  unfold serviceTest; dsimp only; (repeat' split) <;> simp

@[simp] theorem enterCharge_frame :
    (enterCharge s).pins = s.pins ∧ (enterCharge s).now = s.now ∧ (enterCharge s).spt = s.spt ∧
    (enterCharge s).pru = s.pru ∧ (enterCharge s).sdu = s.sdu ∧ (enterCharge s).evc = s.evc ∧
    (enterCharge s).inc = s.inc ∧ (enterCharge s).esa = s.esa ∧ (enterCharge s).slc = s.slc ∧
    (enterCharge s).cst = s.cst ∧ (enterCharge s).rqh = s.rqh ∧ (enterCharge s).cfl = s.cfl ∧
    (enterCharge s).pending = s.pending := by
  simp [enterCharge]

@[simp] theorem leaveOff_frame :
    (leaveOff s).pins = s.pins ∧ (leaveOff s).now = s.now ∧ (leaveOff s).spt = s.spt ∧ (leaveOff s).pru = s.pru ∧
    (leaveOff s).sdu = s.sdu ∧ (leaveOff s).evc = s.evc ∧ (leaveOff s).inc = s.inc ∧ (leaveOff s).esa = s.esa ∧
    (leaveOff s).slc = s.slc ∧ (leaveOff s).cst = s.cst ∧ (leaveOff s).rqh = s.rqh ∧ (leaveOff s).cfl = s.cfl ∧
    (leaveOff s).pending = s.pending := by
  unfold leaveOff; (repeat' split) <;> simp

@[simp] theorem exitInject_frame (c : EndCause) :
    (exitInject c s).pins = s.pins ∧ (exitInject c s).now = s.now ∧ (exitInject c s).spt = s.spt ∧
    (exitInject c s).pru = s.pru ∧ (exitInject c s).sdu = s.sdu ∧ (exitInject c s).evc = s.evc ∧
    (exitInject c s).esa = s.esa ∧ (exitInject c s).slc = s.slc ∧ (exitInject c s).cst = s.cst ∧
    (exitInject c s).rqh = s.rqh ∧ (exitInject c s).cfl = s.cfl ∧ (exitInject c s).pending = s.pending := by
  unfold exitInject; dsimp only; (repeat' split) <;> simp

@[simp] theorem returnToInject_frame :
    (returnToInject s).pins = s.pins ∧ (returnToInject s).now = s.now ∧ (returnToInject s).spt = s.spt ∧
    (returnToInject s).pru = s.pru ∧ (returnToInject s).sdu = s.sdu ∧ (returnToInject s).evc = s.evc ∧
    (returnToInject s).esa = s.esa ∧ (returnToInject s).slc = s.slc ∧ (returnToInject s).cst = s.cst ∧
    (returnToInject s).rqh = s.rqh ∧ (returnToInject s).cfl = s.cfl ∧ (returnToInject s).pending = s.pending := by
  simp [returnToInject]

@[simp] theorem takeResag_frame :
    (takeResag s).pins = s.pins ∧ (takeResag s).now = s.now ∧ (takeResag s).spt = s.spt ∧
    (takeResag s).pru = s.pru ∧ (takeResag s).sdu = s.sdu ∧ (takeResag s).evc = s.evc ∧ (takeResag s).esa = s.esa ∧
    (takeResag s).slc = s.slc ∧ (takeResag s).cst = s.cst ∧ (takeResag s).rqh = s.rqh ∧ (takeResag s).cfl = s.cfl ∧
    (takeResag s).pending = s.pending := by
  unfold takeResag; dsimp only; (repeat' split) <;> simp

@[simp] theorem linkRunTest_frame :
    (linkRunTest s).pins = s.pins ∧ (linkRunTest s).now = s.now ∧ (linkRunTest s).spt = s.spt ∧
    (linkRunTest s).pru = s.pru ∧ (linkRunTest s).sdu = s.sdu ∧ (linkRunTest s).evc = s.evc ∧
    (linkRunTest s).esa = s.esa ∧ (linkRunTest s).slc = s.slc ∧ (linkRunTest s).cst = s.cst ∧
    (linkRunTest s).rqh = s.rqh ∧ (linkRunTest s).cfl = s.cfl ∧ (linkRunTest s).pending = s.pending := by
  unfold linkRunTest; dsimp only; (repeat' split) <;> simp

@[simp] theorem exhaustTest_frame :
    (exhaustTest s).pins = s.pins ∧ (exhaustTest s).now = s.now ∧ (exhaustTest s).spt = s.spt ∧
    (exhaustTest s).pru = s.pru ∧ (exhaustTest s).sdu = s.sdu ∧ (exhaustTest s).evc = s.evc ∧
    (exhaustTest s).esa = s.esa ∧ (exhaustTest s).slc = s.slc ∧ (exhaustTest s).cst = s.cst ∧
    (exhaustTest s).rqh = s.rqh ∧ (exhaustTest s).cfl = s.cfl ∧ (exhaustTest s).pending = s.pending := by
  unfold exhaustTest; (repeat' split) <;> simp

@[simp] theorem closeEvent_frame (c : EndCause) (r : RestorerState) :
    (closeEvent c r s).pins = s.pins ∧ (closeEvent c r s).now = s.now ∧ (closeEvent c r s).spt = s.spt ∧
    (closeEvent c r s).pru = s.pru ∧ (closeEvent c r s).sdu = s.sdu ∧ (closeEvent c r s).evc = s.evc ∧
    (closeEvent c r s).inc = s.inc ∧ (closeEvent c r s).esa = s.esa ∧ (closeEvent c r s).slc = s.slc ∧
    (closeEvent c r s).cst = s.cst ∧ (closeEvent c r s).rqh = s.rqh ∧ (closeEvent c r s).cfl = s.cfl ∧
    (closeEvent c r s).pending = s.pending := by
  simp [closeEvent]

@[simp] theorem beginWaits_frame :
    (beginWaits s).pins = s.pins ∧ (beginWaits s).now = s.now ∧ (beginWaits s).spt = s.spt ∧
    (beginWaits s).pru = s.pru ∧ (beginWaits s).sdu = s.sdu ∧ (beginWaits s).evc = s.evc ∧
    (beginWaits s).inc = s.inc ∧ (beginWaits s).esa = s.esa ∧ (beginWaits s).slc = s.slc ∧
    (beginWaits s).cst = s.cst ∧ (beginWaits s).rqh = s.rqh ∧ (beginWaits s).cfl = s.cfl ∧
    (beginWaits s).pending = s.pending := by
  unfold beginWaits; dsimp only; (repeat' split) <;> simp

@[simp] theorem measureSet_frame (n : Nat) (v : Phases Int) :
    (measureSet n v s).pins = s.pins ∧ (measureSet n v s).now = s.now ∧ (measureSet n v s).spt = s.spt ∧
    (measureSet n v s).pru = s.pru ∧ (measureSet n v s).evc = s.evc ∧ (measureSet n v s).inc = s.inc ∧
    (measureSet n v s).rsq = s.rsq ∧ (measureSet n v s).esa = s.esa ∧ (measureSet n v s).slc = s.slc ∧
    (measureSet n v s).cst = s.cst ∧ (measureSet n v s).rqh = s.rqh ∧ (measureSet n v s).cfl = s.cfl ∧
    (measureSet n v s).pending = s.pending := by
  simp [measureSet]

@[simp] theorem rampStep_frame :
    (rampStep s).pins = s.pins ∧ (rampStep s).now = s.now ∧ (rampStep s).spt = s.spt ∧ (rampStep s).pru = s.pru ∧
    (rampStep s).sdu = s.sdu ∧ (rampStep s).evc = s.evc ∧ (rampStep s).esa = s.esa ∧ (rampStep s).slc = s.slc ∧
    (rampStep s).cst = s.cst ∧ (rampStep s).rqh = s.rqh ∧ (rampStep s).cfl = s.cfl ∧
    (rampStep s).pending = s.pending := by
  unfold rampStep; dsimp only; (repeat' split) <;> simp

@[simp] theorem injectSet_frame (n : Nat) (x : SampleSet) :
    (injectSet n x s).pins = s.pins ∧ (injectSet n x s).now = s.now ∧ (injectSet n x s).spt = s.spt ∧
    (injectSet n x s).pru = s.pru ∧ (injectSet n x s).sdu = s.sdu ∧ (injectSet n x s).evc = s.evc ∧
    (injectSet n x s).esa = s.esa ∧ (injectSet n x s).slc = s.slc ∧ (injectSet n x s).cst = s.cst ∧
    (injectSet n x s).rqh = s.rqh ∧ (injectSet n x s).cfl = s.cfl ∧ (injectSet n x s).pending = s.pending := by
  unfold injectSet; dsimp only; (repeat' split) <;> simp

@[simp] theorem openRecord_frame :
    (openRecord s).pins = s.pins ∧ (openRecord s).now = s.now ∧ (openRecord s).spt = s.spt ∧
    (openRecord s).pru = s.pru ∧ (openRecord s).sdu = s.sdu ∧ (openRecord s).evc = s.evc ∧
    (openRecord s).rsq = s.rsq ∧ (openRecord s).esa = s.esa ∧ (openRecord s).slc = s.slc ∧
    (openRecord s).cst = s.cst ∧ (openRecord s).rqh = s.rqh ∧ (openRecord s).cfl = s.cfl ∧
    (openRecord s).pending = s.pending := by
  simp [openRecord]

@[simp] theorem startInjection_frame :
    (startInjection s).pins = s.pins ∧ (startInjection s).now = s.now ∧ (startInjection s).spt = s.spt ∧
    (startInjection s).pru = s.pru ∧ (startInjection s).sdu = s.sdu ∧ (startInjection s).evc = s.evc ∧
    (startInjection s).rsq = s.rsq ∧ (startInjection s).esa = s.esa ∧ (startInjection s).slc = s.slc ∧
    (startInjection s).cst = s.cst ∧ (startInjection s).rqh = s.rqh ∧ (startInjection s).cfl = s.cfl ∧
    (startInjection s).pending = s.pending := by
  simp [startInjection]

@[simp] theorem setDemand_frame :
    (setDemand s).pins = s.pins ∧ (setDemand s).now = s.now ∧ (setDemand s).spt = s.spt ∧
    (setDemand s).pru = s.pru ∧ (setDemand s).sdu = s.sdu ∧ (setDemand s).evc = s.evc ∧ (setDemand s).rsq = s.rsq ∧
    (setDemand s).esa = s.esa ∧ (setDemand s).slc = s.slc ∧ (setDemand s).cst = s.cst ∧ (setDemand s).rqh = s.rqh ∧
    (setDemand s).cfl = s.cfl ∧ (setDemand s).pending = s.pending := by
  simp [setDemand]

@[simp] theorem handRatio_frame (g : Nat) :
    (handRatio g s).pins = s.pins ∧ (handRatio g s).now = s.now ∧ (handRatio g s).spt = s.spt ∧
    (handRatio g s).pru = s.pru ∧ (handRatio g s).sdu = s.sdu ∧ (handRatio g s).evc = s.evc ∧
    (handRatio g s).rsq = s.rsq ∧ (handRatio g s).esa = s.esa ∧ (handRatio g s).slc = s.slc ∧
    (handRatio g s).cst = s.cst ∧ (handRatio g s).rqh = s.rqh ∧ (handRatio g s).cfl = s.cfl ∧
    (handRatio g s).pending = s.pending := by
  simp [handRatio]

@[simp] theorem captureOnset_frame :
    (captureOnset s).pins = s.pins ∧ (captureOnset s).now = s.now ∧ (captureOnset s).spt = s.spt ∧
    (captureOnset s).pru = s.pru ∧ (captureOnset s).sdu = s.sdu ∧ (captureOnset s).evc = s.evc ∧
    (captureOnset s).inc = s.inc ∧ (captureOnset s).rsq = s.rsq ∧ (captureOnset s).esa = s.esa ∧
    (captureOnset s).slc = s.slc ∧ (captureOnset s).rqh = s.rqh ∧ (captureOnset s).cfl = s.cfl ∧
    (captureOnset s).pending = s.pending := by
  simp [captureOnset]

@[simp] theorem takeClassFields_frame :
    (takeClassFields s).pins = s.pins ∧ (takeClassFields s).now = s.now ∧ (takeClassFields s).spt = s.spt ∧
    (takeClassFields s).pru = s.pru ∧ (takeClassFields s).sdu = s.sdu ∧ (takeClassFields s).evc = s.evc ∧
    (takeClassFields s).inc = s.inc ∧ (takeClassFields s).rsq = s.rsq ∧ (takeClassFields s).esa = s.esa ∧
    (takeClassFields s).slc = s.slc ∧ (takeClassFields s).rqh = s.rqh ∧ (takeClassFields s).cfl = s.cfl ∧
    (takeClassFields s).pending = s.pending := by
  simp [takeClassFields]

@[simp] theorem captureSet_frame (x : SampleSet) :
    (captureSet x s).pins = s.pins ∧ (captureSet x s).now = s.now ∧ (captureSet x s).spt = s.spt ∧
    (captureSet x s).pru = s.pru ∧ (captureSet x s).sdu = s.sdu ∧ (captureSet x s).evc = s.evc ∧
    (captureSet x s).inc = s.inc ∧ (captureSet x s).rsq = s.rsq ∧ (captureSet x s).esa = s.esa ∧
    (captureSet x s).slc = s.slc ∧ (captureSet x s).rqh = s.rqh ∧ (captureSet x s).cfl = s.cfl ∧
    (captureSet x s).pending = s.pending := by
  simp [captureSet]

@[simp] theorem complete_frame :
    (complete s).pins = s.pins ∧ (complete s).now = s.now ∧ (complete s).spt = s.spt ∧ (complete s).pru = s.pru ∧
    (complete s).sdu = s.sdu ∧ (complete s).evc = s.evc ∧ (complete s).inc = s.inc ∧ (complete s).rsq = s.rsq ∧
    (complete s).esa = s.esa ∧ (complete s).slc = s.slc ∧ (complete s).rqh = s.rqh ∧ (complete s).cfl = s.cfl ∧
    (complete s).pending = s.pending := by
  unfold complete; dsimp only; (repeat' split) <;> simp

@[simp] theorem completeDue_frame :
    (completeDue s).pins = s.pins ∧ (completeDue s).now = s.now ∧ (completeDue s).spt = s.spt ∧
    (completeDue s).pru = s.pru ∧ (completeDue s).sdu = s.sdu ∧ (completeDue s).evc = s.evc ∧
    (completeDue s).inc = s.inc ∧ (completeDue s).rsq = s.rsq ∧ (completeDue s).esa = s.esa ∧
    (completeDue s).slc = s.slc ∧ (completeDue s).rqh = s.rqh ∧ (completeDue s).cfl = s.cfl ∧
    (completeDue s).pending = s.pending := by
  unfold completeDue; (repeat' split) <;> simp

@[simp] theorem captureEnded_frame :
    (captureEnded s).pins = s.pins ∧ (captureEnded s).now = s.now ∧ (captureEnded s).spt = s.spt ∧
    (captureEnded s).pru = s.pru ∧ (captureEnded s).sdu = s.sdu ∧ (captureEnded s).evc = s.evc ∧
    (captureEnded s).inc = s.inc ∧ (captureEnded s).rsq = s.rsq ∧ (captureEnded s).esa = s.esa ∧
    (captureEnded s).slc = s.slc ∧ (captureEnded s).rqh = s.rqh ∧ (captureEnded s).cfl = s.cfl ∧
    (captureEnded s).pending = s.pending := by
  simp [captureEnded]

@[simp] theorem releaseCapture_frame :
    (releaseCapture s).pins = s.pins ∧ (releaseCapture s).now = s.now ∧ (releaseCapture s).spt = s.spt ∧
    (releaseCapture s).pru = s.pru ∧ (releaseCapture s).sdu = s.sdu ∧ (releaseCapture s).evc = s.evc ∧
    (releaseCapture s).inc = s.inc ∧ (releaseCapture s).rsq = s.rsq ∧ (releaseCapture s).esa = s.esa ∧
    (releaseCapture s).slc = s.slc ∧ (releaseCapture s).rqh = s.rqh ∧ (releaseCapture s).cfl = s.cfl ∧
    (releaseCapture s).pending = s.pending := by
  simp [releaseCapture]

@[simp] theorem settleMethod_frame (m : TableMethod) :
    (settleMethod m s).pins = s.pins ∧ (settleMethod m s).now = s.now ∧ (settleMethod m s).spt = s.spt ∧
    (settleMethod m s).pru = s.pru ∧ (settleMethod m s).sdu = s.sdu ∧ (settleMethod m s).rsq = s.rsq ∧
    (settleMethod m s).esa = s.esa ∧ (settleMethod m s).slc = s.slc ∧ (settleMethod m s).cst = s.cst ∧
    (settleMethod m s).rqh = s.rqh ∧ (settleMethod m s).cfl = s.cfl ∧ (settleMethod m s).pending = s.pending := by
  unfold settleMethod; dsimp only; (repeat' split) <;> simp

@[simp] theorem withdraw_frame (m : TableMethod) :
    (withdraw m s).pins = s.pins ∧ (withdraw m s).now = s.now ∧ (withdraw m s).spt = s.spt ∧
    (withdraw m s).pru = s.pru ∧ (withdraw m s).sdu = s.sdu ∧ (withdraw m s).esa = s.esa ∧
    (withdraw m s).slc = s.slc ∧ (withdraw m s).cst = s.cst ∧ (withdraw m s).rqh = s.rqh ∧
    (withdraw m s).cfl = s.cfl ∧ (withdraw m s).pending = s.pending := by
  unfold withdraw; dsimp only; (repeat' split) <;> simp

@[simp] theorem putOverride_frame (o : Option (BitVec 2)) :
    (putOverride o s).pins = s.pins ∧ (putOverride o s).now = s.now ∧ (putOverride o s).spt = s.spt ∧
    (putOverride o s).pru = s.pru ∧ (putOverride o s).sdu = s.sdu ∧ (putOverride o s).inc = s.inc ∧
    (putOverride o s).rsq = s.rsq ∧ (putOverride o s).esa = s.esa ∧ (putOverride o s).slc = s.slc ∧
    (putOverride o s).cst = s.cst ∧ (putOverride o s).rqh = s.rqh ∧ (putOverride o s).cfl = s.cfl ∧
    (putOverride o s).pending = s.pending := by
  simp [putOverride]

@[simp] theorem compareLimit_frame (b : Bool) :
    (compareLimit b s).pins = s.pins ∧ (compareLimit b s).now = s.now ∧ (compareLimit b s).spt = s.spt ∧
    (compareLimit b s).pru = s.pru ∧ (compareLimit b s).sdu = s.sdu ∧ (compareLimit b s).esa = s.esa ∧
    (compareLimit b s).slc = s.slc ∧ (compareLimit b s).cst = s.cst ∧ (compareLimit b s).rqh = s.rqh ∧
    (compareLimit b s).cfl = s.cfl ∧ (compareLimit b s).pending = s.pending := by
  unfold compareLimit; dsimp only; (repeat' split) <;> simp

@[simp] theorem putLimit_frame (n : Nat) (b : Bool) :
    (putLimit n b s).pins = s.pins ∧ (putLimit n b s).now = s.now ∧ (putLimit n b s).spt = s.spt ∧
    (putLimit n b s).pru = s.pru ∧ (putLimit n b s).sdu = s.sdu ∧ (putLimit n b s).esa = s.esa ∧
    (putLimit n b s).slc = s.slc ∧ (putLimit n b s).cst = s.cst ∧ (putLimit n b s).rqh = s.rqh ∧
    (putLimit n b s).cfl = s.cfl ∧ (putLimit n b s).pending = s.pending := by
  unfold putLimit; dsimp only; (repeat' split) <;> simp

@[simp] theorem applyAction_frame (b b' : Bool) (e : Option TableEntry) :
    (applyAction b b' e s).pins = s.pins ∧ (applyAction b b' e s).now = s.now ∧
    (applyAction b b' e s).spt = s.spt ∧ (applyAction b b' e s).pru = s.pru ∧ (applyAction b b' e s).sdu = s.sdu ∧
    (applyAction b b' e s).esa = s.esa ∧ (applyAction b b' e s).slc = s.slc ∧ (applyAction b b' e s).rqh = s.rqh ∧
    (applyAction b b' e s).cfl = s.cfl ∧ (applyAction b b' e s).pending = s.pending := by
  unfold applyAction; dsimp only; (repeat' split) <;> simp

@[simp] theorem classify_frame (b b' : Bool) (c : EventClass) :
    (classify b b' c s).pins = s.pins ∧ (classify b b' c s).now = s.now ∧ (classify b b' c s).spt = s.spt ∧
    (classify b b' c s).pru = s.pru ∧ (classify b b' c s).sdu = s.sdu ∧ (classify b b' c s).esa = s.esa ∧
    (classify b b' c s).slc = s.slc ∧ (classify b b' c s).rqh = s.rqh ∧ (classify b b' c s).cfl = s.cfl ∧
    (classify b b' c s).pending = s.pending := by
  simp [classify]

@[simp] theorem openWindow_frame :
    (openWindow s).pins = s.pins ∧ (openWindow s).now = s.now ∧ (openWindow s).spt = s.spt ∧
    (openWindow s).pru = s.pru ∧ (openWindow s).sdu = s.sdu ∧ (openWindow s).esa = s.esa ∧
    (openWindow s).slc = s.slc ∧ (openWindow s).rqh = s.rqh ∧ (openWindow s).cfl = s.cfl ∧
    (openWindow s).pending = s.pending := by
  unfold openWindow; dsimp only; (repeat' split) <;> simp

@[simp] theorem refusedAtClassifier_frame :
    (refusedAtClassifier s).pins = s.pins ∧ (refusedAtClassifier s).now = s.now ∧
    (refusedAtClassifier s).spt = s.spt ∧ (refusedAtClassifier s).pru = s.pru ∧
    (refusedAtClassifier s).sdu = s.sdu ∧ (refusedAtClassifier s).inc = s.inc ∧
    (refusedAtClassifier s).rsq = s.rsq ∧ (refusedAtClassifier s).esa = s.esa ∧
    (refusedAtClassifier s).slc = s.slc ∧ (refusedAtClassifier s).cst = s.cst ∧
    (refusedAtClassifier s).rqh = s.rqh ∧ (refusedAtClassifier s).cfl = s.cfl ∧
    (refusedAtClassifier s).pending = s.pending := by
  simp [refusedAtClassifier]

@[simp] theorem windowStep_frame (b b' : Bool) :
    (windowStep b b' s).pins = s.pins ∧ (windowStep b b' s).now = s.now ∧ (windowStep b b' s).spt = s.spt ∧
    (windowStep b b' s).pru = s.pru ∧ (windowStep b b' s).sdu = s.sdu ∧ (windowStep b b' s).esa = s.esa ∧
    (windowStep b b' s).slc = s.slc ∧ (windowStep b b' s).rqh = s.rqh ∧ (windowStep b b' s).cfl = s.cfl ∧
    (windowStep b b' s).pending = s.pending := by
  unfold windowStep; dsimp only; (repeat' split) <;> simp

@[simp] theorem classifyAtEnd_frame :
    (classifyAtEnd s).pins = s.pins ∧ (classifyAtEnd s).now = s.now ∧ (classifyAtEnd s).spt = s.spt ∧
    (classifyAtEnd s).pru = s.pru ∧ (classifyAtEnd s).sdu = s.sdu ∧ (classifyAtEnd s).inc = s.inc ∧
    (classifyAtEnd s).rsq = s.rsq ∧ (classifyAtEnd s).esa = s.esa ∧ (classifyAtEnd s).slc = s.slc ∧
    (classifyAtEnd s).cst = s.cst ∧ (classifyAtEnd s).rqh = s.rqh ∧ (classifyAtEnd s).cfl = s.cfl ∧
    (classifyAtEnd s).pending = s.pending := by
  unfold classifyAtEnd; (repeat' split) <;> simp

@[simp] theorem releaseIf_frame (b : Bool) :
    (releaseIf b s).pins = s.pins ∧ (releaseIf b s).now = s.now ∧ (releaseIf b s).spt = s.spt ∧
    (releaseIf b s).pru = s.pru ∧ (releaseIf b s).sdu = s.sdu ∧ (releaseIf b s).evc = s.evc ∧
    (releaseIf b s).inc = s.inc ∧ (releaseIf b s).rsq = s.rsq ∧ (releaseIf b s).esa = s.esa ∧
    (releaseIf b s).slc = s.slc ∧ (releaseIf b s).rqh = s.rqh ∧ (releaseIf b s).cfl = s.cfl ∧
    (releaseIf b s).pending = s.pending := by
  unfold releaseIf; (repeat' split) <;> simp

@[simp] theorem settleRecord_frame (k : CompletionTaking) (b : Bool) :
    (settleRecord k b s).pins = s.pins ∧ (settleRecord k b s).now = s.now ∧ (settleRecord k b s).spt = s.spt ∧
    (settleRecord k b s).pru = s.pru ∧ (settleRecord k b s).sdu = s.sdu ∧ (settleRecord k b s).evc = s.evc ∧
    (settleRecord k b s).inc = s.inc ∧ (settleRecord k b s).rsq = s.rsq ∧ (settleRecord k b s).esa = s.esa ∧
    (settleRecord k b s).slc = s.slc ∧ (settleRecord k b s).rqh = s.rqh ∧ (settleRecord k b s).cfl = s.cfl ∧
    (settleRecord k b s).pending = s.pending := by
  unfold settleRecord; (repeat' split) <;> simp

@[simp] theorem quietBlocks_frame :
    (quietBlocks s).pins = s.pins ∧ (quietBlocks s).now = s.now ∧ (quietBlocks s).spt = s.spt ∧
    (quietBlocks s).evc = s.evc ∧ (quietBlocks s).rsq = s.rsq ∧ (quietBlocks s).esa = s.esa ∧
    (quietBlocks s).slc = s.slc ∧ (quietBlocks s).cst = s.cst ∧ (quietBlocks s).rqh = s.rqh ∧
    (quietBlocks s).cfl = s.cfl ∧ (quietBlocks s).pending = s.pending := by
  simp [quietBlocks]

@[simp] theorem handEnd_frame (k : CompletionTaking) :
    (handEnd k s).pins = s.pins ∧ (handEnd k s).now = s.now ∧ (handEnd k s).spt = s.spt ∧
    (handEnd k s).rsq = s.rsq ∧ (handEnd k s).esa = s.esa ∧ (handEnd k s).slc = s.slc ∧ (handEnd k s).rqh = s.rqh ∧
    (handEnd k s).cfl = s.cfl ∧ (handEnd k s).pending = s.pending := by
  simp [handEnd]

@[simp] theorem endEvent_frame (k : CompletionTaking) (c : EndCause) (r : RestorerState) :
    (endEvent k c r s).pins = s.pins ∧ (endEvent k c r s).now = s.now ∧ (endEvent k c r s).spt = s.spt ∧
    (endEvent k c r s).esa = s.esa ∧ (endEvent k c r s).slc = s.slc ∧ (endEvent k c r s).rqh = s.rqh ∧
    (endEvent k c r s).cfl = s.cfl ∧ (endEvent k c r s).pending = s.pending := by
  simp [endEvent]

@[simp] theorem faultTaken_frame (k : CompletionTaking) (c : EndCause) :
    (faultTaken k c s).pins = s.pins ∧ (faultTaken k c s).now = s.now ∧ (faultTaken k c s).spt = s.spt ∧
    (faultTaken k c s).esa = s.esa ∧ (faultTaken k c s).slc = s.slc ∧ (faultTaken k c s).rqh = s.rqh ∧
    (faultTaken k c s).cfl = s.cfl ∧ (faultTaken k c s).pending = s.pending := by
  unfold faultTaken; dsimp only; (repeat' split) <;> simp

@[simp] theorem openOnsetRecord_frame :
    (openOnsetRecord s).pins = s.pins ∧ (openOnsetRecord s).now = s.now ∧ (openOnsetRecord s).spt = s.spt ∧
    (openOnsetRecord s).pru = s.pru ∧ (openOnsetRecord s).evc = s.evc ∧ (openOnsetRecord s).inc = s.inc ∧
    (openOnsetRecord s).rsq = s.rsq ∧ (openOnsetRecord s).esa = s.esa ∧ (openOnsetRecord s).slc = s.slc ∧
    (openOnsetRecord s).cst = s.cst ∧ (openOnsetRecord s).rqh = s.rqh ∧ (openOnsetRecord s).cfl = s.cfl ∧
    (openOnsetRecord s).pending = s.pending := by
  simp [openOnsetRecord]

@[simp] theorem numberOnset_frame :
    (numberOnset s).pins = s.pins ∧ (numberOnset s).now = s.now ∧ (numberOnset s).spt = s.spt ∧
    (numberOnset s).pru = s.pru ∧ (numberOnset s).sdu = s.sdu ∧ (numberOnset s).evc = s.evc ∧
    (numberOnset s).inc = s.inc ∧ (numberOnset s).esa = s.esa ∧ (numberOnset s).slc = s.slc ∧
    (numberOnset s).cst = s.cst ∧ (numberOnset s).rqh = s.rqh ∧ (numberOnset s).cfl = s.cfl ∧
    (numberOnset s).pending = s.pending := by
  simp [numberOnset]

@[simp] theorem enterInject_frame :
    (enterInject s).pins = s.pins ∧ (enterInject s).now = s.now ∧ (enterInject s).spt = s.spt ∧
    (enterInject s).pru = s.pru ∧ (enterInject s).sdu = s.sdu ∧ (enterInject s).evc = s.evc ∧
    (enterInject s).inc = s.inc ∧ (enterInject s).esa = s.esa ∧ (enterInject s).slc = s.slc ∧
    (enterInject s).cst = s.cst ∧ (enterInject s).rqh = s.rqh ∧ (enterInject s).cfl = s.cfl ∧
    (enterInject s).pending = s.pending := by
  simp [enterInject]

@[simp] theorem refuseOnset_frame :
    (refuseOnset s).pins = s.pins ∧ (refuseOnset s).now = s.now ∧ (refuseOnset s).spt = s.spt ∧
    (refuseOnset s).pru = s.pru ∧ (refuseOnset s).sdu = s.sdu ∧ (refuseOnset s).evc = s.evc ∧
    (refuseOnset s).inc = s.inc ∧ (refuseOnset s).esa = s.esa ∧ (refuseOnset s).slc = s.slc ∧
    (refuseOnset s).cst = s.cst ∧ (refuseOnset s).rqh = s.rqh ∧ (refuseOnset s).cfl = s.cfl ∧
    (refuseOnset s).pending = s.pending := by
  simp [refuseOnset]

@[simp] theorem takeOnset_frame (k : CompletionTaking) :
    (takeOnset k s).pins = s.pins ∧ (takeOnset k s).now = s.now ∧ (takeOnset k s).spt = s.spt ∧
    (takeOnset k s).esa = s.esa ∧ (takeOnset k s).slc = s.slc ∧ (takeOnset k s).rqh = s.rqh ∧
    (takeOnset k s).cfl = s.cfl ∧ (takeOnset k s).pending = s.pending := by
  unfold takeOnset; dsimp only; (repeat' split) <;> simp

@[simp] theorem beginRun_frame (t : Nat) :
    (beginRun t s).pins = s.pins ∧ (beginRun t s).now = s.now ∧ (beginRun t s).sdu = s.sdu ∧
    (beginRun t s).evc = s.evc ∧ (beginRun t s).inc = s.inc ∧ (beginRun t s).rsq = s.rsq ∧
    (beginRun t s).esa = s.esa ∧ (beginRun t s).slc = s.slc ∧ (beginRun t s).cst = s.cst ∧
    (beginRun t s).rqh = s.rqh ∧ (beginRun t s).cfl = s.cfl ∧ (beginRun t s).pending = s.pending := by
  simp [beginRun]

@[simp] theorem raiseStrobe_frame (r : Run) (t : Nat) :
    (raiseStrobe r t s).pins = s.pins ∧ (raiseStrobe r t s).now = s.now ∧ (raiseStrobe r t s).sdu = s.sdu ∧
    (raiseStrobe r t s).evc = s.evc ∧ (raiseStrobe r t s).inc = s.inc ∧ (raiseStrobe r t s).rsq = s.rsq ∧
    (raiseStrobe r t s).esa = s.esa ∧ (raiseStrobe r t s).slc = s.slc ∧ (raiseStrobe r t s).cst = s.cst ∧
    (raiseStrobe r t s).rqh = s.rqh ∧ (raiseStrobe r t s).cfl = s.cfl ∧ (raiseStrobe r t s).pending = s.pending := by
  simp [raiseStrobe]

@[simp] theorem noteSet_frame (n : Nat) (v : Phases Int) (b : Bool) :
    (noteSet n v b s).pins = s.pins ∧ (noteSet n v b s).now = s.now ∧ (noteSet n v b s).spt = s.spt ∧
    (noteSet n v b s).sdu = s.sdu ∧ (noteSet n v b s).evc = s.evc ∧ (noteSet n v b s).inc = s.inc ∧
    (noteSet n v b s).rsq = s.rsq ∧ (noteSet n v b s).esa = s.esa ∧ (noteSet n v b s).slc = s.slc ∧
    (noteSet n v b s).cst = s.cst ∧ (noteSet n v b s).rqh = s.rqh ∧ (noteSet n v b s).cfl = s.cfl ∧
    (noteSet n v b s).pending = s.pending := by
  simp [noteSet]

@[simp] theorem handLock_frame (l : LockState) :
    (handLock l s).pins = s.pins ∧ (handLock l s).now = s.now ∧ (handLock l s).spt = s.spt ∧
    (handLock l s).pru = s.pru ∧ (handLock l s).sdu = s.sdu ∧ (handLock l s).evc = s.evc ∧
    (handLock l s).inc = s.inc ∧ (handLock l s).esa = s.esa ∧ (handLock l s).slc = s.slc ∧
    (handLock l s).cst = s.cst ∧ (handLock l s).rqh = s.rqh ∧ (handLock l s).cfl = s.cfl ∧
    (handLock l s).pending = s.pending := by
  unfold handLock; (repeat' split) <;> simp

@[simp] theorem countCycle_frame (b : Bool) :
    (countCycle b s).pins = s.pins ∧ (countCycle b s).now = s.now ∧ (countCycle b s).spt = s.spt ∧
    (countCycle b s).pru = s.pru ∧ (countCycle b s).sdu = s.sdu ∧ (countCycle b s).esa = s.esa ∧
    (countCycle b s).slc = s.slc ∧ (countCycle b s).cst = s.cst ∧ (countCycle b s).rqh = s.rqh ∧
    (countCycle b s).cfl = s.cfl ∧ (countCycle b s).pending = s.pending := by
  unfold countCycle; dsimp only; (repeat' split) <;> simp

@[simp] theorem countCycleEnd_frame :
    (countCycleEnd s).pins = s.pins ∧ (countCycleEnd s).now = s.now ∧ (countCycleEnd s).spt = s.spt ∧
    (countCycleEnd s).pru = s.pru ∧ (countCycleEnd s).sdu = s.sdu ∧ (countCycleEnd s).evc = s.evc ∧
    (countCycleEnd s).inc = s.inc ∧ (countCycleEnd s).esa = s.esa ∧ (countCycleEnd s).slc = s.slc ∧
    (countCycleEnd s).cst = s.cst ∧ (countCycleEnd s).rqh = s.rqh ∧ (countCycleEnd s).cfl = s.cfl ∧
    (countCycleEnd s).pending = s.pending := by
  simp [countCycleEnd]

@[simp] theorem cycleEnd_frame (b b' : Bool) :
    (cycleEnd b b' s).pins = s.pins ∧ (cycleEnd b b' s).now = s.now ∧ (cycleEnd b b' s).spt = s.spt ∧
    (cycleEnd b b' s).sdu = s.sdu ∧ (cycleEnd b b' s).esa = s.esa ∧ (cycleEnd b b' s).slc = s.slc ∧
    (cycleEnd b b' s).cst = s.cst ∧ (cycleEnd b b' s).rqh = s.rqh ∧ (cycleEnd b b' s).cfl = s.cfl ∧
    (cycleEnd b b' s).pending = s.pending := by
  simp [cycleEnd]

@[simp] theorem holdoverLimitReached_frame :
    (holdoverLimitReached s).pins = s.pins ∧ (holdoverLimitReached s).now = s.now ∧
    (holdoverLimitReached s).spt = s.spt ∧ (holdoverLimitReached s).sdu = s.sdu ∧
    (holdoverLimitReached s).evc = s.evc ∧ (holdoverLimitReached s).inc = s.inc ∧
    (holdoverLimitReached s).esa = s.esa ∧ (holdoverLimitReached s).slc = s.slc ∧
    (holdoverLimitReached s).cst = s.cst ∧ (holdoverLimitReached s).rqh = s.rqh ∧
    (holdoverLimitReached s).cfl = s.cfl ∧ (holdoverLimitReached s).pending = s.pending := by
  unfold holdoverLimitReached; (repeat' split) <;> simp

@[simp] theorem accumulate_frame :
    (accumulate s).pins = s.pins ∧ (accumulate s).now = s.now ∧ (accumulate s).spt = s.spt ∧
    (accumulate s).pru = s.pru ∧ (accumulate s).evc = s.evc ∧ (accumulate s).inc = s.inc ∧
    (accumulate s).rsq = s.rsq ∧ (accumulate s).esa = s.esa ∧ (accumulate s).slc = s.slc ∧
    (accumulate s).cst = s.cst ∧ (accumulate s).rqh = s.rqh ∧ (accumulate s).cfl = s.cfl ∧
    (accumulate s).pending = s.pending := by
  unfold accumulate; dsimp only; (repeat' split) <;> simp

@[simp] theorem recoveryTest_frame :
    (recoveryTest s).pins = s.pins ∧ (recoveryTest s).now = s.now ∧ (recoveryTest s).spt = s.spt ∧
    (recoveryTest s).pru = s.pru ∧ (recoveryTest s).evc = s.evc ∧ (recoveryTest s).esa = s.esa ∧
    (recoveryTest s).slc = s.slc ∧ (recoveryTest s).cst = s.cst ∧ (recoveryTest s).rqh = s.rqh ∧
    (recoveryTest s).cfl = s.cfl ∧ (recoveryTest s).pending = s.pending := by
  unfold recoveryTest; dsimp only; (repeat' split) <;> simp

@[simp] theorem detect_frame (k : CompletionTaking) :
    (detect k s).pins = s.pins ∧ (detect k s).now = s.now ∧ (detect k s).spt = s.spt ∧ (detect k s).esa = s.esa ∧
    (detect k s).slc = s.slc ∧ (detect k s).rqh = s.rqh ∧ (detect k s).cfl = s.cfl ∧
    (detect k s).pending = s.pending := by
  unfold detect; dsimp only; (repeat' split) <;> simp

@[simp] theorem overcurrentEnd_frame (k : CompletionTaking) :
    (overcurrentEnd k s).pins = s.pins ∧ (overcurrentEnd k s).now = s.now ∧ (overcurrentEnd k s).spt = s.spt ∧
    (overcurrentEnd k s).esa = s.esa ∧ (overcurrentEnd k s).slc = s.slc ∧ (overcurrentEnd k s).rqh = s.rqh ∧
    (overcurrentEnd k s).cfl = s.cfl ∧ (overcurrentEnd k s).pending = s.pending := by
  simp [overcurrentEnd]

@[simp] theorem overcurrentTest_frame (k : CompletionTaking) :
    (overcurrentTest k s).pins = s.pins ∧ (overcurrentTest k s).now = s.now ∧ (overcurrentTest k s).spt = s.spt ∧
    (overcurrentTest k s).esa = s.esa ∧ (overcurrentTest k s).slc = s.slc ∧ (overcurrentTest k s).rqh = s.rqh ∧
    (overcurrentTest k s).cfl = s.cfl ∧ (overcurrentTest k s).pending = s.pending := by
  unfold overcurrentTest; dsimp only; (repeat' split) <;> simp

@[simp] theorem closeBypasses_frame (k : CompletionTaking) (m : Phases Bool) :
    (closeBypasses k m s).pins = s.pins ∧ (closeBypasses k m s).now = s.now ∧ (closeBypasses k m s).spt = s.spt ∧
    (closeBypasses k m s).esa = s.esa ∧ (closeBypasses k m s).slc = s.slc ∧ (closeBypasses k m s).rqh = s.rqh ∧
    (closeBypasses k m s).cfl = s.cfl ∧ (closeBypasses k m s).pending = s.pending := by
  unfold closeBypasses; dsimp only; (repeat' split) <;> simp

@[simp] theorem closeWaits_frame (k : CompletionTaking) (b : Bool) (x : Phases Int) :
    (closeWaits k b x s).pins = s.pins ∧ (closeWaits k b x s).now = s.now ∧ (closeWaits k b x s).spt = s.spt ∧
    (closeWaits k b x s).esa = s.esa ∧ (closeWaits k b x s).slc = s.slc ∧ (closeWaits k b x s).rqh = s.rqh ∧
    (closeWaits k b x s).cfl = s.cfl ∧ (closeWaits k b x s).pending = s.pending := by
  unfold closeWaits; dsimp only; (repeat' split) <;> simp

@[simp] theorem closeTimedOut_frame (k : CompletionTaking) (m : Phases Bool) :
    (closeTimedOut k m s).pins = s.pins ∧ (closeTimedOut k m s).now = s.now ∧ (closeTimedOut k m s).spt = s.spt ∧
    (closeTimedOut k m s).esa = s.esa ∧ (closeTimedOut k m s).slc = s.slc ∧ (closeTimedOut k m s).rqh = s.rqh ∧
    (closeTimedOut k m s).cfl = s.cfl ∧ (closeTimedOut k m s).pending = s.pending := by
  unfold closeTimedOut; (repeat' split) <;> simp

@[simp] theorem expireDuration_frame :
    (expireDuration s).pins = s.pins ∧ (expireDuration s).now = s.now ∧ (expireDuration s).spt = s.spt ∧
    (expireDuration s).pru = s.pru ∧ (expireDuration s).sdu = s.sdu ∧ (expireDuration s).esa = s.esa ∧
    (expireDuration s).slc = s.slc ∧ (expireDuration s).cst = s.cst ∧ (expireDuration s).rqh = s.rqh ∧
    (expireDuration s).cfl = s.cfl ∧ (expireDuration s).pending = s.pending := by
  unfold expireDuration; dsimp only; (repeat' split) <;> simp

@[simp] theorem arrivalPart_frame (k : ArrivalTaking) (a : Arrival) (p : ArrivalPart) :
    (arrivalPart k a p s).pins = s.pins ∧ (arrivalPart k a p s).now = s.now ∧ (arrivalPart k a p s).spt = s.spt ∧
    (arrivalPart k a p s).esa = s.esa ∧ (arrivalPart k a p s).slc = s.slc ∧ (arrivalPart k a p s).rqh = s.rqh ∧
    (arrivalPart k a p s).cfl = s.cfl ∧ (arrivalPart k a p s).pending = s.pending := by
  cases p <;> unfold arrivalPart <;> simp only [] <;> (repeat' split) <;> simp

@[simp] theorem settleDue_frame :
    (settleDue s).pins = s.pins ∧ (settleDue s).now = s.now ∧ (settleDue s).spt = s.spt ∧
    (settleDue s).esa = s.esa ∧ (settleDue s).slc = s.slc ∧ (settleDue s).rqh = s.rqh ∧ (settleDue s).cfl = s.cfl ∧
    (settleDue s).pending = s.pending := by
  simp [settleDue]

@[simp] theorem takeSet_frame (n : Nat) (g : Option SampleSet) :
    (takeSet n g s).pins = s.pins ∧ (takeSet n g s).now = s.now ∧ (takeSet n g s).evc = s.evc ∧
    (takeSet n g s).inc = s.inc ∧ (takeSet n g s).esa = s.esa ∧ (takeSet n g s).slc = s.slc ∧
    (takeSet n g s).rqh = s.rqh ∧ (takeSet n g s).cfl = s.cfl ∧ (takeSet n g s).pending = s.pending := by
  simp [takeSet]

@[simp] theorem allocate_frame :
    (allocate s).pins = s.pins ∧ (allocate s).now = s.now ∧ (allocate s).spt = s.spt ∧ (allocate s).pru = s.pru ∧
    (allocate s).sdu = s.sdu ∧ (allocate s).evc = s.evc ∧ (allocate s).rsq = s.rsq ∧ (allocate s).slc = s.slc ∧
    (allocate s).cst = s.cst ∧ (allocate s).rqh = s.rqh ∧ (allocate s).cfl = s.cfl ∧
    (allocate s).pending = s.pending := by
  simp [allocate]

@[simp] theorem follow_frame :
    (follow s).pins = s.pins ∧ (follow s).now = s.now ∧ (follow s).spt = s.spt ∧ (follow s).pru = s.pru ∧
    (follow s).sdu = s.sdu ∧ (follow s).evc = s.evc ∧ (follow s).inc = s.inc ∧ (follow s).rsq = s.rsq ∧
    (follow s).esa = s.esa ∧ (follow s).slc = s.slc ∧ (follow s).cst = s.cst ∧ (follow s).cfl = s.cfl ∧
    (follow s).pending = s.pending := by
  simp [follow]

@[simp] theorem answer_frame (g : Nat) (tag : BitVec 4) (st : Status) (d : Word) :
    (answer g tag st d s).pins = s.pins ∧ (answer g tag st d s).now = s.now ∧ (answer g tag st d s).spt = s.spt ∧
    (answer g tag st d s).pru = s.pru ∧ (answer g tag st d s).sdu = s.sdu ∧ (answer g tag st d s).evc = s.evc ∧
    (answer g tag st d s).inc = s.inc ∧ (answer g tag st d s).rsq = s.rsq ∧ (answer g tag st d s).esa = s.esa ∧
    (answer g tag st d s).slc = s.slc ∧ (answer g tag st d s).cst = s.cst ∧ (answer g tag st d s).cfl = s.cfl ∧
    (answer g tag st d s).pending = s.pending := by
  simp [answer]

@[simp] theorem readItem_frame (g : Nat) (tag : BitVec 4) (i : Word) :
    (readItem g tag i s).pins = s.pins ∧ (readItem g tag i s).now = s.now ∧ (readItem g tag i s).spt = s.spt ∧
    (readItem g tag i s).pru = s.pru ∧ (readItem g tag i s).sdu = s.sdu ∧ (readItem g tag i s).evc = s.evc ∧
    (readItem g tag i s).inc = s.inc ∧ (readItem g tag i s).rsq = s.rsq ∧ (readItem g tag i s).esa = s.esa ∧
    (readItem g tag i s).slc = s.slc ∧ (readItem g tag i s).cst = s.cst ∧ (readItem g tag i s).cfl = s.cfl ∧
    (readItem g tag i s).pending = s.pending := by
  unfold readItem; (repeat' split) <;> simp

@[simp] theorem readRecord_frame (g : Nat) (tag : BitVec 4) (i j : Half) :
    (readRecord g tag i j s).pins = s.pins ∧ (readRecord g tag i j s).now = s.now ∧
    (readRecord g tag i j s).spt = s.spt ∧ (readRecord g tag i j s).pru = s.pru ∧
    (readRecord g tag i j s).sdu = s.sdu ∧ (readRecord g tag i j s).evc = s.evc ∧
    (readRecord g tag i j s).inc = s.inc ∧ (readRecord g tag i j s).rsq = s.rsq ∧
    (readRecord g tag i j s).esa = s.esa ∧ (readRecord g tag i j s).slc = s.slc ∧
    (readRecord g tag i j s).cst = s.cst ∧ (readRecord g tag i j s).cfl = s.cfl ∧
    (readRecord g tag i j s).pending = s.pending := by
  simp [readRecord]

@[simp] theorem readPeer_frame (g : Nat) (tag : BitVec 4) (i j : Half) :
    (readPeer g tag i j s).pins = s.pins ∧ (readPeer g tag i j s).now = s.now ∧
    (readPeer g tag i j s).spt = s.spt ∧ (readPeer g tag i j s).pru = s.pru ∧ (readPeer g tag i j s).sdu = s.sdu ∧
    (readPeer g tag i j s).evc = s.evc ∧ (readPeer g tag i j s).inc = s.inc ∧ (readPeer g tag i j s).rsq = s.rsq ∧
    (readPeer g tag i j s).esa = s.esa ∧ (readPeer g tag i j s).slc = s.slc ∧ (readPeer g tag i j s).cst = s.cst ∧
    (readPeer g tag i j s).cfl = s.cfl ∧ (readPeer g tag i j s).pending = s.pending := by
  simp [readPeer]

@[simp] theorem freeRecords_frame (g : Nat) (tag : BitVec 4) (n : Word) :
    (freeRecords g tag n s).pins = s.pins ∧ (freeRecords g tag n s).now = s.now ∧
    (freeRecords g tag n s).spt = s.spt ∧ (freeRecords g tag n s).pru = s.pru ∧
    (freeRecords g tag n s).sdu = s.sdu ∧ (freeRecords g tag n s).evc = s.evc ∧
    (freeRecords g tag n s).inc = s.inc ∧ (freeRecords g tag n s).rsq = s.rsq ∧
    (freeRecords g tag n s).esa = s.esa ∧ (freeRecords g tag n s).slc = s.slc ∧
    (freeRecords g tag n s).cfl = s.cfl ∧ (freeRecords g tag n s).pending = s.pending := by
  unfold freeRecords; (repeat' split) <;> simp

@[simp] theorem leaveLockout_frame :
    (leaveLockout s).pins = s.pins ∧ (leaveLockout s).now = s.now ∧ (leaveLockout s).spt = s.spt ∧
    (leaveLockout s).pru = s.pru ∧ (leaveLockout s).sdu = s.sdu ∧ (leaveLockout s).evc = s.evc ∧
    (leaveLockout s).inc = s.inc ∧ (leaveLockout s).esa = s.esa ∧ (leaveLockout s).slc = s.slc ∧
    (leaveLockout s).cst = s.cst ∧ (leaveLockout s).rqh = s.rqh ∧ (leaveLockout s).cfl = s.cfl ∧
    (leaveLockout s).pending = s.pending := by
  simp [leaveLockout]

@[simp] theorem clearLockout_frame (g : Nat) (tag : BitVec 4) :
    (clearLockout g tag s).pins = s.pins ∧ (clearLockout g tag s).now = s.now ∧
    (clearLockout g tag s).spt = s.spt ∧ (clearLockout g tag s).pru = s.pru ∧ (clearLockout g tag s).sdu = s.sdu ∧
    (clearLockout g tag s).evc = s.evc ∧ (clearLockout g tag s).inc = s.inc ∧ (clearLockout g tag s).esa = s.esa ∧
    (clearLockout g tag s).slc = s.slc ∧ (clearLockout g tag s).cst = s.cst ∧ (clearLockout g tag s).cfl = s.cfl ∧
    (clearLockout g tag s).pending = s.pending := by
  unfold clearLockout; (repeat' split) <;> simp

@[simp] theorem testCapture_frame (g : Nat) (tag : BitVec 4) :
    (testCapture g tag s).pins = s.pins ∧ (testCapture g tag s).now = s.now ∧ (testCapture g tag s).spt = s.spt ∧
    (testCapture g tag s).pru = s.pru ∧ (testCapture g tag s).sdu = s.sdu ∧ (testCapture g tag s).evc = s.evc ∧
    (testCapture g tag s).inc = s.inc ∧ (testCapture g tag s).esa = s.esa ∧ (testCapture g tag s).slc = s.slc ∧
    (testCapture g tag s).cfl = s.cfl ∧ (testCapture g tag s).pending = s.pending := by
  unfold testCapture; dsimp only; (repeat' split) <;> simp

@[simp] theorem setQuiesce_frame :
    (setQuiesce s).pins = s.pins ∧ (setQuiesce s).now = s.now ∧ (setQuiesce s).spt = s.spt ∧
    (setQuiesce s).pru = s.pru ∧ (setQuiesce s).sdu = s.sdu ∧ (setQuiesce s).evc = s.evc ∧
    (setQuiesce s).inc = s.inc ∧ (setQuiesce s).esa = s.esa ∧ (setQuiesce s).slc = s.slc ∧
    (setQuiesce s).cst = s.cst ∧ (setQuiesce s).rqh = s.rqh ∧ (setQuiesce s).cfl = s.cfl ∧
    (setQuiesce s).pending = s.pending := by
  unfold setQuiesce; dsimp only; (repeat' split) <;> simp

@[simp] theorem softReset_frame (g : Nat) (tag : BitVec 4) :
    (softReset g tag s).pins = s.pins ∧ (softReset g tag s).now = s.now ∧ (softReset g tag s).spt = s.spt ∧
    (softReset g tag s).pru = s.pru ∧ (softReset g tag s).sdu = s.sdu ∧ (softReset g tag s).evc = s.evc ∧
    (softReset g tag s).inc = s.inc ∧ (softReset g tag s).esa = s.esa ∧ (softReset g tag s).slc = s.slc ∧
    (softReset g tag s).cst = s.cst ∧ (softReset g tag s).cfl = s.cfl ∧ (softReset g tag s).pending = s.pending := by
  simp [softReset]

@[simp] theorem badCode_frame (g : Nat) (tag : BitVec 4) :
    (badCode g tag s).pins = s.pins ∧ (badCode g tag s).now = s.now ∧ (badCode g tag s).spt = s.spt ∧
    (badCode g tag s).pru = s.pru ∧ (badCode g tag s).sdu = s.sdu ∧ (badCode g tag s).evc = s.evc ∧
    (badCode g tag s).inc = s.inc ∧ (badCode g tag s).rsq = s.rsq ∧ (badCode g tag s).esa = s.esa ∧
    (badCode g tag s).slc = s.slc ∧ (badCode g tag s).cst = s.cst ∧ (badCode g tag s).cfl = s.cfl ∧
    (badCode g tag s).pending = s.pending := by
  simp [badCode]

@[simp] theorem executeStanding_frame :
    (executeStanding s).pins = s.pins ∧ (executeStanding s).now = s.now ∧ (executeStanding s).spt = s.spt ∧
    (executeStanding s).pru = s.pru ∧ (executeStanding s).sdu = s.sdu ∧ (executeStanding s).evc = s.evc ∧
    (executeStanding s).inc = s.inc ∧ (executeStanding s).esa = s.esa ∧ (executeStanding s).slc = s.slc ∧
    (executeStanding s).cfl = s.cfl ∧ (executeStanding s).pending = s.pending := by
  unfold executeStanding; dsimp only; (repeat' split) <;> simp

@[simp] theorem retime_frame (a b : Nat) :
    (retime a b s).pins = s.pins ∧ (retime a b s).now = s.now ∧ (retime a b s).spt = s.spt ∧
    (retime a b s).pru = s.pru ∧ (retime a b s).sdu = s.sdu ∧ (retime a b s).evc = s.evc ∧
    (retime a b s).inc = s.inc ∧ (retime a b s).rsq = s.rsq ∧ (retime a b s).esa = s.esa ∧
    (retime a b s).cst = s.cst ∧ (retime a b s).rqh = s.rqh ∧ (retime a b s).cfl = s.cfl ∧
    (retime a b s).pending = s.pending := by
  simp [retime]

@[simp] theorem takeEntry_frame (b : Block) :
    (takeEntry b s).pins = s.pins ∧ (takeEntry b s).now = s.now ∧ (takeEntry b s).spt = s.spt ∧
    (takeEntry b s).pru = s.pru ∧ (takeEntry b s).sdu = s.sdu ∧ (takeEntry b s).evc = s.evc ∧
    (takeEntry b s).inc = s.inc ∧ (takeEntry b s).rsq = s.rsq ∧ (takeEntry b s).esa = s.esa ∧
    (takeEntry b s).cst = s.cst ∧ (takeEntry b s).rqh = s.rqh ∧ (takeEntry b s).cfl = s.cfl ∧
    (takeEntry b s).pending = s.pending := by
  simp [takeEntry]

@[simp] theorem fillOwn_frame :
    (fillOwn s).pins = s.pins ∧ (fillOwn s).now = s.now ∧ (fillOwn s).spt = s.spt ∧ (fillOwn s).pru = s.pru ∧
    (fillOwn s).sdu = s.sdu ∧ (fillOwn s).evc = s.evc ∧ (fillOwn s).inc = s.inc ∧ (fillOwn s).rsq = s.rsq ∧
    (fillOwn s).esa = s.esa ∧ (fillOwn s).cst = s.cst ∧ (fillOwn s).rqh = s.rqh ∧ (fillOwn s).cfl = s.cfl ∧
    (fillOwn s).pending = s.pending := by
  unfold fillOwn; dsimp only; (repeat' split) <;> simp

@[simp] theorem countLineError_frame :
    (countLineError s).pins = s.pins ∧ (countLineError s).now = s.now ∧ (countLineError s).spt = s.spt ∧
    (countLineError s).pru = s.pru ∧ (countLineError s).sdu = s.sdu ∧ (countLineError s).evc = s.evc ∧
    (countLineError s).inc = s.inc ∧ (countLineError s).rsq = s.rsq ∧ (countLineError s).esa = s.esa ∧
    (countLineError s).cst = s.cst ∧ (countLineError s).rqh = s.rqh ∧ (countLineError s).cfl = s.cfl ∧
    (countLineError s).pending = s.pending := by
  simp [countLineError]

@[simp] theorem takeReadback_frame (x : List Byte) :
    (takeReadback x s).pins = s.pins ∧ (takeReadback x s).now = s.now ∧ (takeReadback x s).spt = s.spt ∧
    (takeReadback x s).pru = s.pru ∧ (takeReadback x s).sdu = s.sdu ∧ (takeReadback x s).evc = s.evc ∧
    (takeReadback x s).inc = s.inc ∧ (takeReadback x s).esa = s.esa ∧ (takeReadback x s).cst = s.cst ∧
    (takeReadback x s).rqh = s.rqh ∧ (takeReadback x s).cfl = s.cfl ∧ (takeReadback x s).pending = s.pending := by
  unfold takeReadback; dsimp only; (repeat' split) <;> simp

@[simp] theorem takeClaim_frame :
    (takeClaim s).pins = s.pins ∧ (takeClaim s).now = s.now ∧ (takeClaim s).spt = s.spt ∧
    (takeClaim s).pru = s.pru ∧ (takeClaim s).sdu = s.sdu ∧ (takeClaim s).evc = s.evc ∧ (takeClaim s).inc = s.inc ∧
    (takeClaim s).rsq = s.rsq ∧ (takeClaim s).esa = s.esa ∧ (takeClaim s).cst = s.cst ∧ (takeClaim s).rqh = s.rqh ∧
    (takeClaim s).cfl = s.cfl ∧ (takeClaim s).pending = s.pending := by
  unfold takeClaim; dsimp only; (repeat' split) <;> simp

@[simp] theorem takeMisaligned_frame (r : Reception) (b : Block) :
    (takeMisaligned r b s).pins = s.pins ∧ (takeMisaligned r b s).now = s.now ∧
    (takeMisaligned r b s).spt = s.spt ∧ (takeMisaligned r b s).pru = s.pru ∧ (takeMisaligned r b s).sdu = s.sdu ∧
    (takeMisaligned r b s).evc = s.evc ∧ (takeMisaligned r b s).inc = s.inc ∧ (takeMisaligned r b s).rsq = s.rsq ∧
    (takeMisaligned r b s).esa = s.esa ∧ (takeMisaligned r b s).cst = s.cst ∧ (takeMisaligned r b s).rqh = s.rqh ∧
    (takeMisaligned r b s).cfl = s.cfl ∧ (takeMisaligned r b s).pending = s.pending := by
  unfold takeMisaligned; dsimp only; (repeat' split) <;> simp

@[simp] theorem timeBlock_frame (r : Reception) (b : Block) :
    (timeBlock r b s).pins = s.pins ∧ (timeBlock r b s).now = s.now ∧ (timeBlock r b s).spt = s.spt ∧
    (timeBlock r b s).pru = s.pru ∧ (timeBlock r b s).sdu = s.sdu ∧ (timeBlock r b s).evc = s.evc ∧
    (timeBlock r b s).inc = s.inc ∧ (timeBlock r b s).rsq = s.rsq ∧ (timeBlock r b s).esa = s.esa ∧
    (timeBlock r b s).cst = s.cst ∧ (timeBlock r b s).rqh = s.rqh ∧ (timeBlock r b s).cfl = s.cfl ∧
    (timeBlock r b s).pending = s.pending := by
  unfold timeBlock; (repeat' split) <;> simp

@[simp] theorem adopt_frame (r : Reception) (b : Block) :
    (adopt r b s).pins = s.pins ∧ (adopt r b s).now = s.now ∧ (adopt r b s).spt = s.spt ∧
    (adopt r b s).pru = s.pru ∧ (adopt r b s).sdu = s.sdu ∧ (adopt r b s).evc = s.evc ∧ (adopt r b s).inc = s.inc ∧
    (adopt r b s).rsq = s.rsq ∧ (adopt r b s).esa = s.esa ∧ (adopt r b s).cst = s.cst ∧ (adopt r b s).rqh = s.rqh ∧
    (adopt r b s).cfl = s.cfl ∧ (adopt r b s).pending = s.pending := by
  unfold adopt; dsimp only; (repeat' split) <;> simp

@[simp] theorem sortBlock_frame (r : Reception) (b : Block) :
    (sortBlock r b s).pins = s.pins ∧ (sortBlock r b s).now = s.now ∧ (sortBlock r b s).spt = s.spt ∧
    (sortBlock r b s).pru = s.pru ∧ (sortBlock r b s).sdu = s.sdu ∧ (sortBlock r b s).evc = s.evc ∧
    (sortBlock r b s).inc = s.inc ∧ (sortBlock r b s).rsq = s.rsq ∧ (sortBlock r b s).esa = s.esa ∧
    (sortBlock r b s).cst = s.cst ∧ (sortBlock r b s).rqh = s.rqh ∧ (sortBlock r b s).cfl = s.cfl ∧
    (sortBlock r b s).pending = s.pending := by
  unfold sortBlock; (repeat' split) <;> simp

@[simp] theorem takeBlock_frame (x : List Byte) :
    (takeBlock x s).pins = s.pins ∧ (takeBlock x s).now = s.now ∧ (takeBlock x s).spt = s.spt ∧
    (takeBlock x s).pru = s.pru ∧ (takeBlock x s).sdu = s.sdu ∧ (takeBlock x s).evc = s.evc ∧
    (takeBlock x s).inc = s.inc ∧ (takeBlock x s).rsq = s.rsq ∧ (takeBlock x s).esa = s.esa ∧
    (takeBlock x s).cst = s.cst ∧ (takeBlock x s).rqh = s.rqh ∧ (takeBlock x s).cfl = s.cfl ∧
    (takeBlock x s).pending = s.pending := by
  unfold takeBlock; dsimp only; (repeat' split) <;> simp

@[simp] theorem transmit_frame (a b : Nat) :
    (transmit a b s).pins = s.pins ∧ (transmit a b s).now = s.now ∧ (transmit a b s).spt = s.spt ∧
    (transmit a b s).pru = s.pru ∧ (transmit a b s).sdu = s.sdu ∧ (transmit a b s).evc = s.evc ∧
    (transmit a b s).inc = s.inc ∧ (transmit a b s).rsq = s.rsq ∧ (transmit a b s).esa = s.esa ∧
    (transmit a b s).cst = s.cst ∧ (transmit a b s).rqh = s.rqh ∧ (transmit a b s).cfl = s.cfl ∧
    (transmit a b s).pending = s.pending := by
  simp [transmit]

@[simp] theorem transmitAt_frame (a : Nat) :
    (transmitAt a s).pins = s.pins ∧ (transmitAt a s).now = s.now ∧ (transmitAt a s).spt = s.spt ∧
    (transmitAt a s).pru = s.pru ∧ (transmitAt a s).sdu = s.sdu ∧ (transmitAt a s).evc = s.evc ∧
    (transmitAt a s).inc = s.inc ∧ (transmitAt a s).rsq = s.rsq ∧ (transmitAt a s).esa = s.esa ∧
    (transmitAt a s).cst = s.cst ∧ (transmitAt a s).rqh = s.rqh ∧ (transmitAt a s).cfl = s.cfl ∧
    (transmitAt a s).pending = s.pending := by
  unfold transmitAt; (repeat' split) <;> simp

@[simp] theorem startAlone_frame :
    (startAlone s).pins = s.pins ∧ (startAlone s).spt = s.spt ∧ (startAlone s).pru = s.pru ∧
    (startAlone s).sdu = s.sdu ∧ (startAlone s).evc = s.evc ∧ (startAlone s).inc = s.inc ∧
    (startAlone s).esa = s.esa ∧ (startAlone s).cst = s.cst ∧ (startAlone s).rqh = s.rqh ∧
    (startAlone s).cfl = s.cfl ∧ (startAlone s).pending = s.pending := by
  unfold startAlone; dsimp only; (repeat' split) <;> simp

@[simp] theorem stepAge_frame :
    (stepAge s).pins = s.pins ∧ (stepAge s).now = s.now ∧ (stepAge s).spt = s.spt ∧ (stepAge s).pru = s.pru ∧
    (stepAge s).sdu = s.sdu ∧ (stepAge s).evc = s.evc ∧ (stepAge s).inc = s.inc ∧ (stepAge s).rsq = s.rsq ∧
    (stepAge s).esa = s.esa ∧ (stepAge s).cst = s.cst ∧ (stepAge s).rqh = s.rqh ∧ (stepAge s).cfl = s.cfl ∧
    (stepAge s).pending = s.pending := by
  simp [stepAge]

@[simp] theorem stepNumber_frame :
    (stepNumber s).pins = s.pins ∧ (stepNumber s).now = s.now ∧ (stepNumber s).spt = s.spt ∧
    (stepNumber s).pru = s.pru ∧ (stepNumber s).sdu = s.sdu ∧ (stepNumber s).evc = s.evc ∧
    (stepNumber s).inc = s.inc ∧ (stepNumber s).rsq = s.rsq ∧ (stepNumber s).esa = s.esa ∧
    (stepNumber s).cst = s.cst ∧ (stepNumber s).rqh = s.rqh ∧ (stepNumber s).cfl = s.cfl ∧
    (stepNumber s).pending = s.pending := by
  unfold stepNumber; dsimp only; (repeat' split) <;> simp

@[simp] theorem stepCollision_frame :
    (stepCollision s).pins = s.pins ∧ (stepCollision s).now = s.now ∧ (stepCollision s).spt = s.spt ∧
    (stepCollision s).pru = s.pru ∧ (stepCollision s).sdu = s.sdu ∧ (stepCollision s).evc = s.evc ∧
    (stepCollision s).inc = s.inc ∧ (stepCollision s).rsq = s.rsq ∧ (stepCollision s).esa = s.esa ∧
    (stepCollision s).cst = s.cst ∧ (stepCollision s).rqh = s.rqh ∧ (stepCollision s).cfl = s.cfl ∧
    (stepCollision s).pending = s.pending := by
  unfold stepCollision; dsimp only; (repeat' split) <;> simp

@[simp] theorem stepAlign_frame (w : Word) (a : Nat) :
    (stepAlign w a s).pins = s.pins ∧ (stepAlign w a s).now = s.now ∧ (stepAlign w a s).spt = s.spt ∧
    (stepAlign w a s).pru = s.pru ∧ (stepAlign w a s).sdu = s.sdu ∧ (stepAlign w a s).evc = s.evc ∧
    (stepAlign w a s).inc = s.inc ∧ (stepAlign w a s).rsq = s.rsq ∧ (stepAlign w a s).esa = s.esa ∧
    (stepAlign w a s).cst = s.cst ∧ (stepAlign w a s).rqh = s.rqh ∧ (stepAlign w a s).cfl = s.cfl ∧
    (stepAlign w a s).pending = s.pending := by
  unfold stepAlign; dsimp only; (repeat' split) <;> simp

@[simp] theorem stepJoin_frame :
    (stepJoin s).pins = s.pins ∧ (stepJoin s).now = s.now ∧ (stepJoin s).spt = s.spt ∧ (stepJoin s).pru = s.pru ∧
    (stepJoin s).sdu = s.sdu ∧ (stepJoin s).evc = s.evc ∧ (stepJoin s).inc = s.inc ∧ (stepJoin s).rsq = s.rsq ∧
    (stepJoin s).esa = s.esa ∧ (stepJoin s).cst = s.cst ∧ (stepJoin s).rqh = s.rqh ∧ (stepJoin s).cfl = s.cfl ∧
    (stepJoin s).pending = s.pending := by
  unfold stepJoin; dsimp only; (repeat' split) <;> simp

@[simp] theorem handMembership_frame (m : Membership) :
    (handMembership m s).pins = s.pins ∧ (handMembership m s).now = s.now ∧ (handMembership m s).spt = s.spt ∧
    (handMembership m s).pru = s.pru ∧ (handMembership m s).sdu = s.sdu ∧ (handMembership m s).evc = s.evc ∧
    (handMembership m s).inc = s.inc ∧ (handMembership m s).esa = s.esa ∧ (handMembership m s).slc = s.slc ∧
    (handMembership m s).cst = s.cst ∧ (handMembership m s).rqh = s.rqh ∧ (handMembership m s).cfl = s.cfl ∧
    (handMembership m s).pending = s.pending := by
  unfold handMembership; (repeat' split) <;> simp

@[simp] theorem frameEndSlc_frame (a : Nat) :
    (frameEndSlc a s).pins = s.pins ∧ (frameEndSlc a s).now = s.now ∧ (frameEndSlc a s).spt = s.spt ∧
    (frameEndSlc a s).pru = s.pru ∧ (frameEndSlc a s).sdu = s.sdu ∧ (frameEndSlc a s).evc = s.evc ∧
    (frameEndSlc a s).esa = s.esa ∧ (frameEndSlc a s).cst = s.cst ∧ (frameEndSlc a s).rqh = s.rqh ∧
    (frameEndSlc a s).cfl = s.cfl ∧ (frameEndSlc a s).pending = s.pending := by
  simp [frameEndSlc]

@[simp] theorem framePart_frame (k : FrameTaking) (a : Nat) (p : FramePart) :
    (framePart k a p s).pins = s.pins ∧ (framePart k a p s).now = s.now ∧ (framePart k a p s).spt = s.spt ∧
    (framePart k a p s).pru = s.pru ∧ (framePart k a p s).sdu = s.sdu ∧ (framePart k a p s).cfl = s.cfl ∧
    (framePart k a p s).pending = s.pending := by
  cases p <;> unfold framePart <;> simp

@[simp] theorem readStraps_frame (x : BitVec 4) :
    (readStraps x s).pins = s.pins ∧ (readStraps x s).now = s.now ∧ (readStraps x s).spt = s.spt ∧
    (readStraps x s).pru = s.pru ∧ (readStraps x s).sdu = s.sdu ∧ (readStraps x s).evc = s.evc ∧
    (readStraps x s).inc = s.inc ∧ (readStraps x s).rsq = s.rsq ∧ (readStraps x s).esa = s.esa ∧
    (readStraps x s).slc = s.slc ∧ (readStraps x s).cst = s.cst ∧ (readStraps x s).rqh = s.rqh ∧
    (readStraps x s).pending = s.pending := by
  simp [readStraps]

@[simp] theorem startUp_frame (x : BitVec 4) :
    (startUp x s).pins = s.pins ∧ (startUp x s).now = s.now ∧ (startUp x s).sdu = s.sdu ∧
    (startUp x s).evc = s.evc ∧ (startUp x s).inc = s.inc ∧ (startUp x s).rsq = s.rsq ∧ (startUp x s).esa = s.esa ∧
    (startUp x s).slc = s.slc ∧ (startUp x s).cst = s.cst ∧ (startUp x s).rqh = s.rqh ∧
    (startUp x s).pending = s.pending := by
  simp [startUp]

@[simp] theorem initialState_frame :
    (initialState s).now = s.now ∧ (initialState s).pending = s.pending := by
  simp [initialState]

@[simp] theorem enterListen_frame :
    (enterListen s).pins = s.pins ∧ (enterListen s).now = s.now ∧ (enterListen s).spt = s.spt ∧
    (enterListen s).pru = s.pru ∧ (enterListen s).sdu = s.sdu ∧ (enterListen s).evc = s.evc ∧
    (enterListen s).inc = s.inc ∧ (enterListen s).rsq = s.rsq ∧ (enterListen s).esa = s.esa ∧
    (enterListen s).cst = s.cst ∧ (enterListen s).rqh = s.rqh ∧ (enterListen s).cfl = s.cfl ∧
    (enterListen s).pending = s.pending := by
  unfold enterListen; dsimp only; (repeat' split) <;> simp

@[simp] theorem comeIntoForce_frame (r : LoadResult) :
    (comeIntoForce r s).pins = s.pins ∧ (comeIntoForce r s).now = s.now ∧ (comeIntoForce r s).spt = s.spt ∧
    (comeIntoForce r s).sdu = s.sdu ∧ (comeIntoForce r s).inc = s.inc ∧ (comeIntoForce r s).esa = s.esa ∧
    (comeIntoForce r s).rqh = s.rqh ∧ (comeIntoForce r s).pending = s.pending := by
  simp [comeIntoForce]

@[simp] theorem endLoad_frame (r : LoadResult) :
    (endLoad r s).pins = s.pins ∧ (endLoad r s).now = s.now ∧ (endLoad r s).spt = s.spt ∧
    (endLoad r s).sdu = s.sdu ∧ (endLoad r s).inc = s.inc ∧ (endLoad r s).esa = s.esa ∧ (endLoad r s).rqh = s.rqh ∧
    (endLoad r s).pending = s.pending := by
  unfold endLoad; (repeat' split) <;> simp

@[simp] theorem softResetState_frame :
    (softResetState s).pins = s.pins ∧ (softResetState s).now = s.now ∧ (softResetState s).pending = s.pending := by
  simp [softResetState]

@[simp] theorem disable_frame :
    (disable s).pins = s.pins ∧ (disable s).now = s.now ∧ (disable s).spt = s.spt ∧ (disable s).pru = s.pru ∧
    (disable s).sdu = s.sdu ∧ (disable s).evc = s.evc ∧ (disable s).esa = s.esa ∧ (disable s).slc = s.slc ∧
    (disable s).cst = s.cst ∧ (disable s).rqh = s.rqh ∧ (disable s).cfl = s.cfl ∧ (disable s).pending = s.pending := by
  unfold disable; dsimp only; (repeat' split) <;> simp

@[simp] theorem assertFault_frame (f : FaultInput) (k : CompletionTaking) :
    (assertFault f k s).now = s.now ∧ (assertFault f k s).spt = s.spt ∧ (assertFault f k s).esa = s.esa ∧
    (assertFault f k s).slc = s.slc ∧ (assertFault f k s).rqh = s.rqh ∧ (assertFault f k s).cfl = s.cfl ∧
    (assertFault f k s).pending = s.pending := by
  unfold assertFault; dsimp only; (repeat' split) <;> simp

/-! Folds: an arrival and a frame end as a sequence of parts. -/

/-- Without a soft reset within the arrival every part is taken, in the order. -/
theorem takeParts_of_none {k : ArrivalTaking} (h : k.softReset = none) (a : Arrival) (ps : List ArrivalPart) :
    takeParts k a ps s = ps.foldl (fun s p => arrivalPart k a p s) s := by
  induction ps generalizing s with
  | nil => simp [takeParts, resetWithin, h]
  | cons p ps ih => simp [takeParts, resetWithin, h, ih]

/-- What every part of an arrival keeps, the arrival keeps once its set is taken, if a soft reset keeps it too. -/
theorem arrive_induct (P : State → Prop) (k : ArrivalTaking) (n : Nat) (g : Option SampleSet)
    (start : P (takeSet n g (settleDue s))) (part : ∀ a p s, P s → P (arrivalPart k a p s))
    (reset : ∀ x s, k.softReset = some x → softResetReady s = true → P s → P (carryOutReset x s)) :
    P (arrive k n g s) := by
  have moment : ∀ x s, resetWithin k s = some x → P s → P (carryOutReset x s) := by
    intro x s h hs
    unfold resetWithin at h
    split at h
    · exact reset x s h (by assumption) hs
    · cases h
  unfold arrive
  dsimp only
  generalize arrivalOrder k = ps
  generalize takeSet n g (settleDue s) = s' at start
  induction ps generalizing s' with
  | nil =>
    unfold takeParts
    split
    · exact moment _ _ (by assumption) start
    · exact start
  | cons p ps ih =>
    unfold takeParts
    split
    · exact moment _ _ (by assumption) start
    · exact ih _ (part _ p _ start)

/-- What SLC's work and every part of a frame end keep, the frame end keeps. -/
theorem frameEnd_induct (P : State → Prop) (k : FrameTaking) (t : Nat) (start : P (frameEndSlc t s))
    (part : ∀ p s, P s → P (framePart k t p s)) : P (frameEnd k t s) := by
  unfold frameEnd
  generalize takingOrder (withPrerequisites k.order) frameParts = ps
  generalize frameEndSlc t s = s' at start
  induction ps generalizing s' with
  | nil => exact start
  | cons p ps ih => exact ih _ (part p _ start)

/-- What every command keeps, whatever the queue, a step keeps. -/
theorem step_induct (P : State → Prop) (queue : ∀ s q, P s → P { s with pending := q })
    (command : ∀ c s t, P s → exec c s = .next t → P t) {t : State} (hs : P s) (h : step s = .next t) : P t := by
  unfold step at h
  split at h
  · cases h
    exact hs
  · exact command _ _ _ (queue _ _ hs) h

@[simp] theorem carryOutReset_frame (x : BitVec 4) :
    (carryOutReset x s).pins = s.pins ∧ (carryOutReset x s).now = s.now ∧ (carryOutReset x s).pending = s.pending := by
  simp [carryOutReset]

@[simp] theorem arrive_frame (k : ArrivalTaking) (n : Nat) (g : Option SampleSet) :
    (arrive k n g s).pins = s.pins ∧ (arrive k n g s).now = s.now ∧ (arrive k n g s).pending = s.pending := by
  refine arrive_induct s (fun u => u.pins = s.pins ∧ u.now = s.now ∧ u.pending = s.pending) k n g (by simp) ?_ ?_
  · intro a p u h
    simpa using h
  · intro x u _ _ h
    simpa using h

/-- Without a soft reset within it an arrival leaves the line, the allocation, the requests and the settings. -/
@[simp] theorem arrive_frame_of_none {k : ArrivalTaking} (h : k.softReset = none) (n : Nat) (g : Option SampleSet) :
    (arrive k n g s).esa = s.esa ∧ (arrive k n g s).slc = s.slc ∧ (arrive k n g s).rqh = s.rqh ∧
    (arrive k n g s).cfl = s.cfl := by
  refine arrive_induct s (fun u => u.esa = s.esa ∧ u.slc = s.slc ∧ u.rqh = s.rqh ∧ u.cfl = s.cfl) k n g (by simp) ?_ ?_
  · intro a p u h
    simpa using h
  · intro x u hx _ _
    rw [h] at hx
    cases hx

@[simp] theorem frameEnd_frame (k : FrameTaking) (t : Nat) :
    (frameEnd k t s).pins = s.pins ∧ (frameEnd k t s).now = s.now ∧ (frameEnd k t s).spt = s.spt ∧
    (frameEnd k t s).pru = s.pru ∧ (frameEnd k t s).sdu = s.sdu ∧ (frameEnd k t s).cfl = s.cfl ∧
    (frameEnd k t s).pending = s.pending := by
  refine frameEnd_induct s (fun u =>
      u.pins = s.pins ∧ u.now = s.now ∧ u.spt = s.spt ∧ u.pru = s.pru ∧ u.sdu = s.sdu ∧ u.cfl = s.cfl ∧
      u.pending = s.pending) k t (by simp) ?_
  intro p u h
  simpa using h

@[simp] theorem deadlinePasses_frame (k : ArrivalTaking) :
    (deadlinePasses k s).pins = s.pins ∧ (deadlinePasses k s).pending = s.pending := by
  unfold deadlinePasses; (repeat' split) <;> simp

@[simp] theorem deadlinePasses_frame_of_none {k : ArrivalTaking} (h : k.softReset = none) :
    (deadlinePasses k s).esa = s.esa ∧ (deadlinePasses k s).slc = s.slc ∧ (deadlinePasses k s).rqh = s.rqh ∧
    (deadlinePasses k s).cfl = s.cfl := by
  unfold deadlinePasses; (repeat' split) <;> simp [h]

@[simp] theorem strobeTime_frame  :
    (strobeTime s).pins = s.pins ∧ (strobeTime s).sdu = s.sdu ∧ (strobeTime s).evc = s.evc ∧
    (strobeTime s).inc = s.inc ∧ (strobeTime s).rsq = s.rsq ∧ (strobeTime s).esa = s.esa ∧
    (strobeTime s).slc = s.slc ∧ (strobeTime s).cst = s.cst ∧ (strobeTime s).rqh = s.rqh ∧
    (strobeTime s).cfl = s.cfl ∧ (strobeTime s).pending = s.pending := by
  unfold strobeTime; (repeat' split) <;> simp

@[simp] theorem setArrives_frame (t : Nat) (x : RawSet) (k : ArrivalTaking) :
    (setArrives t x k s).pins = s.pins ∧ (setArrives t x k s).pending = s.pending := by
  unfold setArrives; (repeat' split) <;> simp

@[simp] theorem setArrives_frame_of_none {k : ArrivalTaking} (h : k.softReset = none) (t : Nat) (x : RawSet) :
    (setArrives t x k s).esa = s.esa ∧ (setArrives t x k s).slc = s.slc ∧ (setArrives t x k s).rqh = s.rqh ∧
    (setArrives t x k s).cfl = s.cfl := by
  unfold setArrives; (repeat' split) <;> simp [h]

@[simp] theorem slotStarts_frame (k : FrameTaking) :
    (slotStarts k s).pins = s.pins ∧ (slotStarts k s).spt = s.spt ∧ (slotStarts k s).pru = s.pru ∧
    (slotStarts k s).sdu = s.sdu ∧ (slotStarts k s).cfl = s.cfl ∧ (slotStarts k s).pending = s.pending := by
  unfold slotStarts; dsimp only; (repeat' split) <;> simp

end Sys2Proof.Machine
end

