-- ==== Sys2Proof/Laws/Sequencing.lean ====
section
/-! SUPPORT. What the restorer's shared changes do: an exit from INJECT, the end of an event, a fault taken, the bypasses
closing, and the completion of a capture; an arrival as a sequence. -/

namespace Sys2Proof.Machine

variable (s : State)

/-! An exit from INJECT (R117). -/

theorem exitInject_of_inject {s : State} (c : EndCause) (h : s.rsq.state = .inject) :
    exitInject c s =
      { s with
        rsq := { s.rsq with state := .release, endCause := c, rampDone := false }
        inc := { s.inc with rampCount := 0 } } := by
  simp [exitInject, h]

theorem exitInject_of_not_inject {s : State} (c : EndCause) (h : s.rsq.state ≠ .inject) : exitInject c s = s := by
  simp [exitInject, h]

/-! The completion of a capture (R142, R143). -/

@[simp] theorem completeDue_of_not_due {s : State} (h : captureDue s = false) : completeDue s = s := by
  simp [completeDue, h]

/-- What every completion keeps, the completion of a due capture keeps. -/
theorem completeDue_induct (P : State → Prop) {s : State} (hs : P s)
    (one : ∀ s, P s → captureDue s = true → P (complete s)) : P (completeDue s) := by
  unfold completeDue
  split
  · rename_i h1
    split
    · rename_i h2
      exact one _ (one _ hs h1) h2
    · exact one _ hs h1
  · exact hs

/-- An opening fills the slot from the history; pointers and counts stand (R138). -/
@[simp] theorem openSlot_fields (l : Layout) (m : Making) (tail : Option Nat) (delayed test : Bool) (c : Cst) :
    (openSlot l m tail delayed test c).layout = c.layout ∧ (openSlot l m tail delayed test c).oldest = c.oldest ∧
    (openSlot l m tail delayed test c).fill = c.fill ∧ (openSlot l m tail delayed test c).full = c.full ∧
    (openSlot l m tail delayed test c).queued = c.queued ∧ (openSlot l m tail delayed test c).missed = c.missed ∧
    (openSlot l m tail delayed test c).history = c.history ∧
    (openSlot l m tail delayed test c).filling =
      some { making := m, written := 128, tail := tail, truncated := false, delayed := delayed, test := test } := by
  simp [openSlot]

/-- A missed capture is counted and nothing else (R139). -/
@[simp] theorem missCapture_fields (c : Cst) :
    (missCapture c).mem = c.mem ∧ (missCapture c).layout = c.layout ∧ (missCapture c).oldest = c.oldest ∧
    (missCapture c).fill = c.fill ∧ (missCapture c).full = c.full ∧ (missCapture c).filling = c.filling ∧
    (missCapture c).queued = c.queued ∧ (missCapture c).missed = satInc c.missed ∧
    (missCapture c).history = c.history := by
  simp [missCapture]

/-- A queued opening is made or missed; pointers and counts stand (R140). -/
@[simp] theorem openQueued_fields (l : Layout) (q : Queued) (c : Cst) :
    (openQueued l q c).layout = c.layout ∧ (openQueued l q c).oldest = c.oldest ∧ (openQueued l q c).fill = c.fill ∧
    (openQueued l q c).full = c.full ∧ (openQueued l q c).queued = c.queued ∧
    (openQueued l q c).history = c.history := by
  unfold openQueued
  split <;> simp

/-- Filing a record advances the FULL count and the fill pointer (R143). -/
@[simp] theorem fileRecord_fields (l : Layout) (m : Summary) (c : Cst) :
    (fileRecord l m c).layout = c.layout ∧ (fileRecord l m c).oldest = c.oldest ∧
    (fileRecord l m c).fill = (c.fill + 1) % l.slots ∧ (fileRecord l m c).full = c.full + 1 ∧
    (fileRecord l m c).filling = none ∧ (fileRecord l m c).queued = none ∧ (fileRecord l m c).missed = c.missed ∧
    (fileRecord l m c).history = c.history := by
  simp [fileRecord]

/-- A completion keeps the layout, the oldest pointer and the history. -/
@[simp] theorem complete_cst_frame :
    (complete s).cst.layout = s.cst.layout ∧ (complete s).cst.oldest = s.cst.oldest ∧
    (complete s).cst.history = s.cst.history := by
  unfold complete
  split
  · dsimp only
    split <;> simp
  · simp

@[simp] theorem completeDue_cst_frame :
    (completeDue s).cst.layout = s.cst.layout ∧ (completeDue s).cst.oldest = s.cst.oldest ∧
    (completeDue s).cst.history = s.cst.history := by
  refine completeDue_induct
    (fun u => u.cst.layout = s.cst.layout ∧ u.cst.oldest = s.cst.oldest ∧ u.cst.history = s.cst.history)
    (by simp) ?_
  intro u h _
  simpa using h

@[simp] theorem releaseIf_cst_frame (no : Bool) :
    (releaseIf no s).cst.layout = s.cst.layout ∧ (releaseIf no s).cst.oldest = s.cst.oldest ∧
    (releaseIf no s).cst.history = s.cst.history := by
  unfold releaseIf releaseCapture
  split <;> simp

@[simp] theorem settleRecord_cst_frame (k : CompletionTaking) (no : Bool) :
    (settleRecord k no s).cst.layout = s.cst.layout ∧ (settleRecord k no s).cst.oldest = s.cst.oldest ∧
    (settleRecord k no s).cst.history = s.cst.history := by
  unfold settleRecord
  split <;> simp

/-! The event's end (R124). -/

/-- The event's end at every block but EVC and CST. -/
theorem endEvent_eq (k : CompletionTaking) (c : EndCause) (t : RestorerState) :
    endEvent k c t s =
      { s with
        rsq := (closeEvent c t s).rsq
        inc := { s.inc with port := Phases.same 0 }
        sdu := { s.sdu with record := { s.sdu.record with isOpen := false } }
        pru := { s.pru with cycle := { s.pru.cycle with eventEnded := true } }
        evc := (endEvent k c t s).evc
        cst := (endEvent k c t s).cst } := by
  apply state_ext <;> simp [endEvent, handEnd, quietBlocks]

/-- The event's end at EVC: window closed, override reverted, no expiry left (R77, R84). -/
@[simp] theorem endEvent_evc (k : CompletionTaking) (c : EndCause) (t : RestorerState) :
    (endEvent k c t s).evc.window = false ∧ (endEvent k c t s).evc.override = none ∧
    (endEvent k c t s).evc.expiryDue = false ∧ (endEvent k c t s).evc.table = s.evc.table ∧
    (endEvent k c t s).evc.limit = s.evc.limit ∧ (endEvent k c t s).evc.withdrawn = s.evc.withdrawn ∧
    (endEvent k c t s).evc.coincidence = s.evc.coincidence := by
  have h : (endEvent k c t s).evc = (classifyAtEnd (captureEnded (quietBlocks (closeEvent c t s)))).evc := by
    simp [endEvent, handEnd]
  rw [h]
  unfold classifyAtEnd
  split <;> simp_all [captureEnded, quietBlocks, closeEvent]

@[simp] theorem endEvent_cst_frame (k : CompletionTaking) (c : EndCause) (t : RestorerState) :
    (endEvent k c t s).cst.layout = s.cst.layout ∧ (endEvent k c t s).cst.oldest = s.cst.oldest ∧
    (endEvent k c t s).cst.history = s.cst.history := by
  simp [endEvent, handEnd, captureEnded, quietBlocks, closeEvent]

/-! A fault taken (R128, R129). -/

theorem faultTaken_of_event {s : State} (k : CompletionTaking) (c : EndCause) (h : eventActive s = true) :
    faultTaken k c s = endEvent k c .lockout s := by
  simp [faultTaken, (eventActive_iff s).mp h]

theorem faultTaken_of_service {s : State} (k : CompletionTaking) (c : EndCause)
    (h : s.rsq.state = .charge ∨ s.rsq.state = .ready) :
    faultTaken k c s = { s with rsq := { s.rsq with state := .lockout } } := by
  rcases h with h | h <;> simp [faultTaken, h]

theorem faultTaken_of_out {s : State} (k : CompletionTaking) (c : EndCause)
    (h : s.rsq.state = .off ∨ s.rsq.state = .lockout) : faultTaken k c s = s := by
  rcases h with h | h <;> simp [faultTaken, h]

/-! A soft reset within an arrival (R132). -/

@[simp] theorem resetWithin_of_none {k : ArrivalTaking} (h : k.softReset = none) : resetWithin k s = none := by
  simp [resetWithin, h]

/-- Once the conditions hold, the soft reset is made and no further part of the arrival is taken. -/
theorem takeParts_of_ready {k : ArrivalTaking} {x : BitVec 4} (h : k.softReset = some x) (a : Arrival)
    (ps : List ArrivalPart) {s : State} (hs : softResetReady s = true) : takeParts k a ps s = carryOutReset x s := by
  cases ps <;> simp [takeParts, resetWithin, h, hs]

/-- While they do not hold, the next part is taken. -/
theorem takeParts_of_not_ready (k : ArrivalTaking) (a : Arrival) (p : ArrivalPart) (ps : List ArrivalPart) {s : State}
    (hs : softResetReady s = false) : takeParts k a (p :: ps) s = takeParts k a ps (arrivalPart k a p s) := by
  simp [takeParts, resetWithin, hs]

/-! The order of an arrival's work. -/

@[simp] theorem arrivalOrder_default : arrivalOrder {} = arrivalParts := by decide

/-- With the holdover limit left apart the cycle end is the last work of its arrival. -/
theorem arrivalOrder_apart_last {k : ArrivalTaking} (h : k.apart.contains .holdoverLimit = true) :
    (arrivalOrder k).getLast? = some .cycleEnd := by
  simp only [arrivalOrder, h, if_true]
  exact List.getLast?_concat

/-- What SPT has last handed on, once an arrival's set is taken: the good set, or the one held (R3, R4). -/
theorem takeSet_lastGood (n : Nat) (good : Option SampleSet) :
    (takeSet n good s).spt.lastGood = good.getD s.spt.lastGood := by
  cases good <;> simp [takeSet, judge]

/-- An arrival in the order taken when the operand names none (log 4). -/
theorem arrive_default (index : Nat) (good : Option SampleSet) :
    arrive {} index good s =
      let set := good.getD s.spt.lastGood
      let s1 := takeSet index good (settleDue s)
      let s2 := detect .afterNo (if good.isNone = true ∧ s.spt.missRun = 3 then faultTaken .afterNo .sense s1 else s1)
      let s3 := if index = 127 then cycleEnd false false s2 else s2
      let s4 := overcurrentTest .afterNo (linkRunTest (serviceTest (injectSet index set s3)))
      completeDue (closeWaits .afterNo false s.spt.lastGood.i s4) := by
  have h : (settleDue s).spt = s.spt := by simp
  have hs := takeSet_lastGood (settleDue s) index good
  rw [h] at hs
  unfold arrive
  simp only [takeParts_of_none, arrivalOrder_default, arrivalParts, List.foldl, h]
  generalize takeSet index good (settleDue s) = s1 at hs
  generalize ha : ({ index := index, before := s.spt.lastGood.i, sense := good.isNone && s.spt.missRun == 3 } :
    Arrival) = a
  have first : arrivalPart {} a .sense s1 =
      if good.isNone = true ∧ s.spt.missRun = 3 then faultTaken .afterNo .sense s1 else s1 := by
    subst ha
    simp [arrivalPart]
  have set : (arrivalPart {} a .cycleEnd (arrivalPart {} a .detect (arrivalPart {} a .sense s1))).spt.lastGood
      = good.getD s.spt.lastGood := by
    simp [hs]
  have hi : a.index = index := by rw [← ha]
  have hb : a.before = s.spt.lastGood.i := by rw [← ha]
  rw [← first, ← set, ← hi, ← hb]
  rfl

/-! The cycle end of an active event (R14, R86, R127). -/

/-- PRU is frozen, both counts advance, and the limit is compared. -/
theorem cycleEnd_of_event {s : State} (apart expiry : Bool) (h : eventActive s = true) :
    cycleEnd apart expiry s = countCycleEnd (compareLimit expiry
      { s with
        pru := { s.pru with dc := 0, ref := { s.pru.ref with age := satInc s.pru.ref.age } }
        evc := { s.evc with cycles := satInc s.evc.cycles } }) := by
  have hp : cycleEndPru apart s = { s.pru with dc := 0, ref := { s.pru.ref with age := satInc s.pru.ref.age } } := by
    simp [cycleEndPru, h]
  have h' : (s.rsq.state == .inject || s.rsq.state == .release) = true := h
  simp [cycleEnd, handLock, hp, countCycle, eventActive, h']

/-! The close waits (R123). -/

@[simp] theorem timedOut_none : timedOut none = false := rfl

theorem releaseTarget_ne_release : releaseTarget s ≠ .release := by
  unfold releaseTarget
  (repeat' split) <;> decide

/-- Bypasses that close: the event ends when they are the last open ones; else they and their waits go. -/
theorem closeBypasses_eq (k : CompletionTaking) (m : Phases Bool) :
    closeBypasses k m s =
      if s.rsq.bypassOpen.any = true ∧ (s.rsq.bypassOpen.minus m).any = false then
        endEvent k s.rsq.endCause (releaseTarget s) s
      else
        { s with rsq := { s.rsq with
            bypassOpen := s.rsq.bypassOpen.minus m
            waits := Phases.map2 (fun c w => if c then none else w) m s.rsq.waits } } := by
  unfold closeBypasses
  dsimp only
  split <;> rename_i h <;> simp at h
  · rw [if_pos h]
    rfl
  · rw [if_neg (by simpa using h)]

theorem wait_closed_twice (m n : Bool) (o : Option Nat) :
    let left := if (m && timedOut o) then none else o
    (if (n && timedOut left) then none else left) = (if ((m || n) && timedOut o) then none else o) := by
  cases m <;> cases n <;> cases h : timedOut o <;> simp [h]

theorem bypass_closed_twice (a m n : Bool) (o : Option Nat) :
    ((a && !(m && timedOut o)) && !(n && timedOut (if (m && timedOut o) then none else o))) =
      (a && !((m || n) && timedOut o)) := by
  cases m <;> cases n <;> cases h : timedOut o <;> simp [h]

theorem any_of_some_left (o m : Phases Bool) (h : ¬ (o.any = true ∧ (o.minus m).any = false)) :
    (o.minus m).any = o.any := by
  rcases o with ⟨a, b, c⟩
  rcases m with ⟨x, y, z⟩
  revert h
  revert a b c x y z
  decide

/-- Two closings of waits that have run out are one closing of the phases of both. -/
theorem closeTimedOut_twice (k : CompletionTaking) (m n : Phases Bool) :
    closeTimedOut k n (closeTimedOut k m s) = closeTimedOut k (m.join n) s := by
  by_cases hr : s.rsq.state = .release
  · have e : ∀ x, closeTimedOut k x s = closeBypasses k (x.meet (s.rsq.waits.map timedOut)) s := by
      intro x
      simp [closeTimedOut, hr]
    by_cases h : s.rsq.bypassOpen.any = true ∧ (s.rsq.bypassOpen.minus (m.meet (s.rsq.waits.map timedOut))).any = false
    · have h' : s.rsq.bypassOpen.any = true ∧
          (s.rsq.bypassOpen.minus ((m.join n).meet (s.rsq.waits.map timedOut))).any = false := by
        refine ⟨h.1, ?_⟩
        have := h.2
        simp [Phases.any, Phases.minus, Phases.map2, Phases.meet, Phases.join, Phases.map] at this ⊢
        exact ⟨⟨fun g => ⟨fun f => absurd (this.1.1 g).1 (by simp [f]), (this.1.1 g).2⟩,
          fun g => ⟨fun f => absurd (this.1.2 g).1 (by simp [f]), (this.1.2 g).2⟩⟩,
          fun g => ⟨fun f => absurd (this.2 g).1 (by simp [f]), (this.2 g).2⟩⟩
      rw [e, e, closeBypasses_eq, closeBypasses_eq, if_pos h, if_pos h']
      unfold closeTimedOut
      rw [if_neg]
      simpa [endEvent, closeEvent] using releaseTarget_ne_release s
    · rw [e, e, closeBypasses_eq, if_neg h]
      unfold closeTimedOut
      rw [if_pos hr, closeBypasses_eq, closeBypasses_eq]
      dsimp only
      have hb : (s.rsq.bypassOpen.minus (m.meet (s.rsq.waits.map timedOut))).minus (n.meet ((Phases.map2
          (fun c w => if c then none else w) (m.meet (s.rsq.waits.map timedOut)) s.rsq.waits).map timedOut)) =
          s.rsq.bypassOpen.minus ((m.join n).meet (s.rsq.waits.map timedOut)) :=
        (Phases.mk.injEq ..).mpr ⟨bypass_closed_twice .., bypass_closed_twice .., bypass_closed_twice ..⟩
      have hw : Phases.map2 (fun c w => if c then none else w) (n.meet ((Phases.map2
          (fun c w => if c then none else w) (m.meet (s.rsq.waits.map timedOut)) s.rsq.waits).map timedOut))
          (Phases.map2 (fun c w => if c then none else w) (m.meet (s.rsq.waits.map timedOut)) s.rsq.waits) =
          Phases.map2 (fun c w => if c then none else w) ((m.join n).meet (s.rsq.waits.map timedOut)) s.rsq.waits :=
        (Phases.mk.injEq ..).mpr ⟨wait_closed_twice .., wait_closed_twice .., wait_closed_twice ..⟩
      rw [hb, hw, any_of_some_left _ _ h]
      split <;> rfl
  · simp [closeTimedOut, hr]

end Sys2Proof.Machine
end

