-- ==== Sys2Proof/Laws/Commands.lean ====
section
/-! SUPPORT. Every command answers a next state: its effect as a function, and what follows for a step. -/

namespace Sys2Proof.Machine

/-- The state that each command leads to. -/
def effect (c : Instr) (s : State) : State :=
  match c with
  | .powerOn => initialState s
  | .resetAsserted => initialState s
  | .resetReleased t straps =>
    if s.pins.resetHeld then startUp straps { initialState (s.moveTo t) with pins.resetHeld := false }
    else s.moveTo t
  | .memoryNoAnswer t => endLoad (defaultsResult .noAnswer) (s.moveTo t)
  | .loadCompletion t image => endLoad (loadImage image) (s.moveTo t)
  | .enableAsserted t => leaveOff { s.moveTo t with pins.enable := true }
  | .enableDeasserted t => disable { s.moveTo t with pins.enable := false }
  | .faultInputActive t f k => assertFault f k (s.moveTo t)
  | .strobe => strobeTime (deadlinePasses {} s)
  | .sampleSetArrival t set k => setArrives t set k s
  | .arrivalDeadline k => deadlinePasses k s
  | .holdoverLimit => holdoverLimitReached s
  | .closeWaitTimeout p k => closeTimedOut k (phaseMask p) s
  | .durationExpiry => expireDuration s
  | .captureCompletion => completeDue s
  | .blockStart t =>
    if s.pins.resetHeld || lineActive (s.moveTo t).now s.slc then s.moveTo t
    else { s.moveTo t with slc := blockBegins (s.moveTo t).now s.slc }
  | .blockReceived t readback bytes =>
    if readback then takeReadback bytes (s.moveTo t) else takeBlock bytes (s.moveTo t)
  | .startAlone => startAlone s
  | .slotStart k => slotStarts k s
  | .readItem g tag item => if stands g tag 1 (some item) s then readItem g tag item s else s
  | .readRecord g tag slot word => if stands g tag 2 (some (slot ++ word)) s then readRecord g tag slot word s else s
  | .readPeer g tag slot field => if stands g tag 3 (some (slot ++ field)) s then readPeer g tag slot field s else s
  | .freeRecords g tag n => if stands g tag 4 (some n) s then freeRecords g tag n s else s
  | .clearLockout g tag => if stands g tag 5 none s then clearLockout g tag s else s
  | .testCapture g tag => if stands g tag 6 none s then testCapture g tag s else s
  | .softReset g tag => if stands g tag 7 none s then softReset g tag s else s
  | .badCodeRequest g tag code => if 8 ≤ code.toNat ∧ stands g tag code none s = true then badCode g tag s else s
  | .softResetCarriedOut t straps =>
    if softResetReady s then carryOutReset straps (s.moveTo t) else s.moveTo t
  | .faultInputCleared t f => { s.moveTo t with pins := s.pins.setFault f false }

/-- Every command answers the next state of its effect. -/
theorem exec_eq_effect (c : Instr) (s : State) : exec c s = .next (effect c s) := by
  cases c <;> rfl

theorem exec_next_iff {c : Instr} {s u : State} : exec c s = .next u ↔ effect c s = u := by
  rw [exec_eq_effect]
  exact ⟨fun h => by injection h, fun h => by rw [h]⟩

/-- What every command's effect keeps, whatever the queue, a step keeps. -/
theorem step_induct_effect (P : State → Prop) (queue : ∀ s q, P s → P { s with pending := q })
    (command : ∀ c s, P s → P (effect c s)) {s u : State} (hs : P s) (h : step s = .next u) : P u :=
  step_induct s P queue (fun c s _ hs h => exec_next_iff.mp h ▸ command c s hs) hs h

end Sys2Proof.Machine
end

