-- ==== Sys2Proof/Laws/Line.lean ====
section
/-! SUPPORT. SLC's shared operations: the fields of the line's state that each leaves as they are. -/

namespace Sys2Proof.Machine

variable (s : State)

@[simp] theorem blockBegins_fields (t : Nat) (p : Slc) :
    (blockBegins t p).membership = p.membership ∧ (blockBegins t p).listenEnd = p.listenEnd ∧
    (blockBegins t p).heardFirst = p.heardFirst ∧ (blockBegins t p).frameNumber = p.frameNumber ∧
    (blockBegins t p).peers = p.peers ∧ (blockBegins t p).lineErrors = p.lineErrors ∧
    (blockBegins t p).collisionRun = p.collisionRun ∧ (blockBegins t p).collisionCount = p.collisionCount ∧
    (blockBegins t p).collisionMark = p.collisionMark ∧ (blockBegins t p).misalignRun = p.misalignRun ∧
    (blockBegins t p).misalignCount = p.misalignCount ∧ (blockBegins t p).candidate = p.candidate ∧
    (blockBegins t p).duplicate = p.duplicate ∧ (blockBegins t p).tx = p.tx := by
  unfold blockBegins
  (repeat' split) <;> simp

@[simp] theorem transmitAt_fields (t : Nat) :
    (transmitAt t s).slc.membership = s.slc.membership ∧ (transmitAt t s).slc.listenEnd = s.slc.listenEnd ∧
    (transmitAt t s).slc.heardFirst = s.slc.heardFirst ∧ (transmitAt t s).slc.frameNumber = s.slc.frameNumber ∧
    (transmitAt t s).slc.peers = s.slc.peers ∧ (transmitAt t s).slc.lineErrors = s.slc.lineErrors ∧
    (transmitAt t s).slc.collisionRun = s.slc.collisionRun ∧
    (transmitAt t s).slc.collisionCount = s.slc.collisionCount ∧
    (transmitAt t s).slc.collisionMark = s.slc.collisionMark ∧ (transmitAt t s).slc.misalignRun = s.slc.misalignRun ∧
    (transmitAt t s).slc.misalignCount = s.slc.misalignCount ∧ (transmitAt t s).slc.candidate = s.slc.candidate ∧
    (transmitAt t s).slc.duplicate = s.slc.duplicate ∧ (transmitAt t s).slc.rx = s.slc.rx := by
  unfold transmitAt transmit
  (repeat' split) <;> simp

@[simp] theorem stepCollision_fields :
    (stepCollision s).slc.timing = s.slc.timing ∧ (stepCollision s).slc.listenEnd = s.slc.listenEnd ∧
    (stepCollision s).slc.heardFirst = s.slc.heardFirst ∧ (stepCollision s).slc.frameNumber = s.slc.frameNumber ∧
    (stepCollision s).slc.peers = s.slc.peers ∧ (stepCollision s).slc.lineErrors = s.slc.lineErrors ∧
    (stepCollision s).slc.misalignRun = s.slc.misalignRun ∧
    (stepCollision s).slc.misalignCount = s.slc.misalignCount ∧ (stepCollision s).slc.candidate = s.slc.candidate ∧
    (stepCollision s).slc.rx = s.slc.rx ∧ (stepCollision s).slc.tx = s.slc.tx := by
  unfold stepCollision
  dsimp only
  (repeat' split) <;> simp

@[simp] theorem stepAlign_fields (before : Word) (t : Nat) :
    (stepAlign before t s).slc.membership = s.slc.membership ∧
    (stepAlign before t s).slc.listenEnd = s.slc.listenEnd ∧
    (stepAlign before t s).slc.heardFirst = s.slc.heardFirst ∧
    (stepAlign before t s).slc.frameNumber = s.slc.frameNumber ∧ (stepAlign before t s).slc.peers = s.slc.peers ∧
    (stepAlign before t s).slc.lineErrors = s.slc.lineErrors ∧
    (stepAlign before t s).slc.collisionRun = s.slc.collisionRun ∧
    (stepAlign before t s).slc.collisionCount = s.slc.collisionCount ∧
    (stepAlign before t s).slc.collisionMark = s.slc.collisionMark ∧
    (stepAlign before t s).slc.misalignCount = s.slc.misalignCount ∧
    (stepAlign before t s).slc.duplicate = s.slc.duplicate ∧ (stepAlign before t s).slc.rx = s.slc.rx ∧
    (stepAlign before t s).slc.tx = s.slc.tx := by
  unfold stepAlign
  dsimp only
  (repeat' split) <;> simp

@[simp] theorem stepJoin_fields :
    (stepJoin s).slc.timing = s.slc.timing ∧ (stepJoin s).slc.listenEnd = s.slc.listenEnd ∧
    (stepJoin s).slc.heardFirst = s.slc.heardFirst ∧ (stepJoin s).slc.frameNumber = s.slc.frameNumber ∧
    (stepJoin s).slc.peers = s.slc.peers ∧ (stepJoin s).slc.lineErrors = s.slc.lineErrors ∧
    (stepJoin s).slc.collisionRun = s.slc.collisionRun ∧ (stepJoin s).slc.collisionCount = s.slc.collisionCount ∧
    (stepJoin s).slc.collisionMark = s.slc.collisionMark ∧ (stepJoin s).slc.misalignRun = s.slc.misalignRun ∧
    (stepJoin s).slc.misalignCount = s.slc.misalignCount ∧ (stepJoin s).slc.candidate = s.slc.candidate ∧
    (stepJoin s).slc.duplicate = s.slc.duplicate ∧ (stepJoin s).slc.rx = s.slc.rx ∧
    (stepJoin s).slc.tx = s.slc.tx := by
  unfold stepJoin
  split <;> simp

@[simp] theorem stepNumber_fields :
    (stepNumber s).slc.membership = s.slc.membership ∧ (stepNumber s).slc.timing = s.slc.timing ∧
    (stepNumber s).slc.listenEnd = s.slc.listenEnd ∧ (stepNumber s).slc.heardFirst = s.slc.heardFirst ∧
    (stepNumber s).slc.peers = s.slc.peers ∧ (stepNumber s).slc.lineErrors = s.slc.lineErrors ∧
    (stepNumber s).slc.collisionRun = s.slc.collisionRun ∧
    (stepNumber s).slc.collisionCount = s.slc.collisionCount ∧
    (stepNumber s).slc.collisionMark = s.slc.collisionMark ∧ (stepNumber s).slc.misalignRun = s.slc.misalignRun ∧
    (stepNumber s).slc.misalignCount = s.slc.misalignCount ∧ (stepNumber s).slc.candidate = s.slc.candidate ∧
    (stepNumber s).slc.duplicate = s.slc.duplicate ∧ (stepNumber s).slc.rx = s.slc.rx ∧
    (stepNumber s).slc.tx = s.slc.tx := by
  unfold stepNumber
  split <;> simp

/-- Filling the own entry changes the peer table alone (R50). -/
@[simp] theorem fillOwn_fields :
    (fillOwn s).slc.membership = s.slc.membership ∧ (fillOwn s).slc.timing = s.slc.timing ∧
    (fillOwn s).slc.listenEnd = s.slc.listenEnd ∧ (fillOwn s).slc.heardFirst = s.slc.heardFirst ∧
    (fillOwn s).slc.frameNumber = s.slc.frameNumber ∧ (fillOwn s).slc.lineErrors = s.slc.lineErrors ∧
    (fillOwn s).slc.collisionRun = s.slc.collisionRun ∧ (fillOwn s).slc.collisionCount = s.slc.collisionCount ∧
    (fillOwn s).slc.collisionMark = s.slc.collisionMark ∧ (fillOwn s).slc.misalignRun = s.slc.misalignRun ∧
    (fillOwn s).slc.misalignCount = s.slc.misalignCount ∧ (fillOwn s).slc.candidate = s.slc.candidate ∧
    (fillOwn s).slc.duplicate = s.slc.duplicate ∧ (fillOwn s).slc.rx = s.slc.rx ∧
    (fillOwn s).slc.tx = s.slc.tx := by
  unfold fillOwn
  split <;> simp

/-- The own entry's filling leaves the other slots (R50). -/
theorem fillOwn_peerEntry {j : Nat} (h : ownSlot s ≠ some j) : peerEntry (fillOwn s) j = peerEntry s j := by
  unfold fillOwn
  split
  · rename_i i hi
    have hij : i ≠ j := fun e => h (e ▸ hi)
    simp [peerEntry, List.getD_eq_getElem?_getD, hij]
  · rfl

/-- Aging, entry by entry (R54). -/
theorem stepAge_peerEntry {j : Nat} (h : ownSlot s ≠ some j) :
    peerEntry (stepAge s) j = (peerEntry s j).age := by
  have hb : PeerEntry.absent.age = PeerEntry.absent := rfl
  simp only [peerEntry, stepAge, agePeers, List.getD_eq_getElem?_getD, List.getElem?_mapIdx, h, if_false]
  cases s.slc.peers[j]? <;> simp [hb]

/-- A block taken fills its slot's entry and no other (R51). -/
theorem takeEntry_peerEntry_other (b : Block) {j : Nat} (h : j ≠ b.slot.toNat) :
    peerEntry (takeEntry b s) j = peerEntry s j := by
  simp [peerEntry, takeEntry, List.getD_eq_getElem?_getD, h.symm]

/-! Starting alone. -/

/-- Declared slot 0 with nothing in reception. -/
theorem declareAlone_idle (t : Nat) {p : Slc} (h : p.rx = none) :
    declareAlone t p =
      { p with
        membership := .member, listenEnd := none
        timing := some
          { slot := 0, nominal := t, next := t + Config.slotLength, taken := false
            lastFrameEnd := lastFrameEnd p.timing, gridStart := t } } := by
  simp [declareAlone, h]

/-- START_ALONE keeps the frame number and the peer table. -/
theorem declareAlone_keeps (t : Nat) (p : Slc) :
    (declareAlone t p).frameNumber = p.frameNumber ∧ (declareAlone t p).peers = p.peers ∧
      (declareAlone t p).membership = .member ∧ (declareAlone t p).tx = p.tx := by
  unfold declareAlone
  cases p.rx with
  | none => exact ⟨rfl, rfl, rfl, rfl⟩
  | some r =>
    simp only [blockBegins]
    split <;> exact ⟨rfl, rfl, rfl, rfl⟩

end Sys2Proof.Machine
end

