-- ==== Sys2Proof/Laws/Memory.lean ====
section
/-! SUPPORT. The capture memory's cells: reading after writing, and the canonical form kept by every write. -/

namespace Sys2Proof.Machine.Memory

/-- The canonical form of a memory with a cell in front. -/
theorem wf_cons {a : Nat} {v : Byte} {m : List Host.Cell} :
    wf ((a, v) :: m) = true ↔ v ≠ 0 ∧ (∀ c ∈ m, a < c.1) ∧ wf m = true := by
  simp [wf, and_assoc]

@[simp] theorem read_nil (a : Nat) : read [] a = 0 := rfl

theorem read_cons (b : Nat) (v : Byte) (m : List Host.Cell) (a : Nat) :
    read ((b, v) :: m) a = if a = b then v else read m a := rfl

/-- An address below every cell reads as 0. -/
theorem read_below {m : List Host.Cell} {a : Nat} (h : ∀ c ∈ m, a < c.1) : read m a = 0 := by
  induction m with
  | nil => rfl
  | cons c m ih =>
    obtain ⟨b, v⟩ := c
    have hb : a < b := h (b, v) (by simp)
    rw [read_cons, if_neg (Nat.ne_of_lt hb)]
    exact ih (fun c hc => h c (List.mem_cons_of_mem _ hc))

/-- A write does not change what another address reads as. -/
theorem read_write_other (m : List Host.Cell) {a b : Nat} (v : Byte) (h : b ≠ a) :
    read (write m a v) b = read m b := by
  induction m with
  | nil => unfold write; split <;> simp [read_cons, h]
  | cons c m ih =>
    obtain ⟨x, w⟩ := c
    unfold write
    (repeat' split) <;> simp_all [read_cons]

/-- A written address reads as the value written. -/
theorem read_write_same {m : List Host.Cell} (hm : wf m = true) (a : Nat) (v : Byte) : read (write m a v) a = v := by
  induction m with
  | nil => unfold write; split <;> simp_all [read_cons]
  | cons c m ih =>
    obtain ⟨x, w⟩ := c
    obtain ⟨_, hlt, hwf⟩ := wf_cons.mp hm
    unfold write
    split
    · rename_i hax
      split
      · subst v
        apply read_below
        intro c hc
        rcases List.mem_cons.mp hc with rfl | hc
        · exact hax
        · exact lt_trans hax (hlt c hc)
      · simp [read_cons]
    · split
      · rename_i hax
        subst hax
        split
        · subst v
          exact read_below hlt
        · simp [read_cons]
      · rename_i hne
        rw [read_cons, if_neg hne]
        exact ih hwf

/-- The addresses after a write are those before it and the one written. -/
theorem mem_write {m : List Host.Cell} {a : Nat} {v : Byte} {c : Host.Cell} (h : c ∈ write m a v) :
    c = (a, v) ∨ c ∈ m := by
  induction m with
  | nil => unfold write at h; split at h <;> simp_all
  | cons d m ih =>
    obtain ⟨x, w⟩ := d
    unfold write at h
    (repeat' split at h) <;> simp_all
    · tauto
    · rcases h with h | h
      · tauto
      · have := ih h; tauto

/-- A write keeps the canonical form. -/
theorem wf_write {m : List Host.Cell} (hm : wf m = true) (a : Nat) (v : Byte) : wf (write m a v) = true := by
  induction m with
  | nil => unfold write; split <;> simp_all [wf]
  | cons c m ih =>
    obtain ⟨x, w⟩ := c
    obtain ⟨hw, hlt, hwf⟩ := wf_cons.mp hm
    unfold write
    split
    · rename_i hax
      split
      · exact hm
      · refine wf_cons.mpr ⟨by assumption, ?_, hm⟩
        intro c hc
        rcases List.mem_cons.mp hc with rfl | hc
        · exact hax
        · exact lt_trans hax (hlt c hc)
    · split
      · rename_i hax
        subst hax
        split
        · exact hwf
        · exact wf_cons.mpr ⟨by assumption, hlt, hwf⟩
      · rename_i h1 h2
        refine wf_cons.mpr ⟨hw, ?_, ih hwf⟩
        intro c hc
        rcases mem_write hc with rfl | hc
        · simp only
          omega
        · exact hlt c hc

/-- Writing bytes keeps the canonical form. -/
theorem wf_writeBytes {m : List Host.Cell} (hm : wf m = true) (a : Nat) (vs : List Byte) :
    wf (writeBytes m a vs) = true := by
  induction vs generalizing m a with
  | nil => exact hm
  | cons v vs ih => exact ih (wf_write hm a v) (a + 1)

/-- Writing bytes does not change what an address outside them reads as. -/
theorem read_writeBytes_outside (m : List Host.Cell) (a : Nat) (vs : List Byte) {b : Nat}
    (h : b < a ∨ a + vs.length ≤ b) : read (writeBytes m a vs) b = read m b := by
  induction vs generalizing m a with
  | nil => rfl
  | cons v vs ih =>
    simp only [List.length_cons] at h
    unfold writeBytes
    rw [ih _ _ (by omega), read_write_other _ _ (by omega)]

/-- The n-th written byte is read at the n-th address. -/
theorem read_writeBytes_inside {m : List Host.Cell} (hm : wf m = true) (a : Nat) (vs : List Byte) {n : Nat}
    (h : n < vs.length) : read (writeBytes m a vs) (a + n) = vs[n] := by
  induction vs generalizing m a n with
  | nil => simp at h
  | cons v vs ih =>
    unfold writeBytes
    cases n with
    | zero =>
      rw [read_writeBytes_outside _ _ _ (by omega)]
      simpa using read_write_same hm a v
    | succ n =>
      have := ih (wf_write hm a v) (a + 1) (n := n) (by simpa using h)
      rw [show a + (n + 1) = a + 1 + n by omega]
      simpa using this

/-- Writing sets keeps the canonical form. -/
theorem wf_writeSets {m : List Host.Cell} (hm : wf m = true) (l : Layout) (slot q : Nat) (xs : List CapturedSet) :
    wf (writeSets l slot q xs m) = true := by
  induction xs generalizing m q with
  | nil => exact hm
  | cons x xs ih => exact ih (wf_writeBytes hm _ _) (q + 1)

/-- An opening keeps the canonical form (R138). -/
theorem wf_openSlot {c : Cst} (h : wf c.mem = true) (l : Layout) (m : Making) (tail : Option Nat)
    (delayed test : Bool) : wf (openSlot l m tail delayed test c).mem = true := by
  unfold openSlot
  exact wf_writeSets (wf_writeBytes h _ _) _ _ _ _

/-- Filing a record keeps the canonical form (R143). -/
theorem wf_fileRecord {c : Cst} (h : wf c.mem = true) (l : Layout) (m : Summary) :
    wf (fileRecord l m c).mem = true := by
  simp only [fileRecord]
  generalize (summaryWords m).flatMap wordBytes = bytes
  exact wf_writeBytes h _ bytes

/-- The memory at power-on is canonical. -/
theorem wf_reset : wf State.reset.cst.mem = true := rfl

end Sys2Proof.Machine.Memory
end

