-- ==== Sys2Proof/WellFormed.lean ====
section
/-! DEFINITION. Which commands are well formed: the checks on operands that their types do not make. Every command
has its meaning whether or not it passes. -/

namespace Sys2Proof

/-- An order of taking names each part at most once. -/
def ArrivalTaking.wellFormed (k : ArrivalTaking) : Bool :=
  decide k.order.Nodup && decide k.apart.Nodup

/-- An order of taking names each part at most once. -/
def FrameTaking.wellFormed (k : FrameTaking) : Bool :=
  decide k.order.Nodup

/-- Slots are numbered 0..11 (R34). -/
def slotInRange (g : Nat) : Bool := decide (g < 12)

/-- The checks of a command's operands: slots 0..11, at most 32 bytes in a block (R34), a bad code of 8..15 (R158),
orders without repeats. -/
def Instr.wellFormed : Instr → Bool
  | .powerOn => true
  | .resetAsserted => true
  | .resetReleased _ _ => true
  | .memoryNoAnswer _ => true
  | .loadCompletion _ _ => true
  | .enableAsserted _ => true
  | .enableDeasserted _ => true
  | .faultInputActive _ _ _ => true
  | .strobe => true
  | .sampleSetArrival _ _ k => k.wellFormed
  | .arrivalDeadline k => k.wellFormed
  | .holdoverLimit => true
  | .closeWaitTimeout _ _ => true
  | .durationExpiry => true
  | .captureCompletion => true
  | .blockStart _ => true
  | .blockReceived _ _ bytes => decide (bytes.length ≤ 32)
  | .startAlone => true
  | .slotStart k => k.wellFormed
  | .readItem g _ _ => slotInRange g
  | .readRecord g _ _ _ => slotInRange g
  | .readPeer g _ _ _ => slotInRange g
  | .freeRecords g _ _ => slotInRange g
  | .clearLockout g _ => slotInRange g
  | .testCapture g _ => slotInRange g
  | .softReset g _ => slotInRange g
  | .badCodeRequest g _ code => slotInRange g && decide (8 ≤ code.toNat)
  | .softResetCarriedOut _ _ => true
  | .faultInputCleared _ _ => true

end Sys2Proof
end

