-- ==== Sys2Proof/Tests/Slice0.lean ====
section
/-! SUPPORT. The model's own tests: the checks of `Instr.wellFormed`, worked examples of the manual, and for each
statement of Certificates/Slice0/Obligations.lean that has hypotheses a concrete state and operands that meet them. -/

namespace Sys2Proof.Tests

open Sys2Proof Sys2Proof.Machine

set_option Elab.async false

/-! Small states. -/

/-- The state that a command answers. -/
def after (o : Host.Outcome State Fault Refusal) : State :=
  match o with
  | .next u => u
  | .refused _ => State.reset

/-- RESET released, ENABLE asserted, slot 3, the built-in defaults in force, layout code 1. -/
def plain : State :=
  { State.reset with
    pins := { Pins.initial with resetHeld := false, enable := true }
    cst := { Cst.initial with layout := some .code1 }
    cfl := { Cfl.initial with strap := 3, strapsRead := true, source := .defaults } }

/-- A slot grid in slot n that starts at 0. -/
def gridIn (n : Nat) : Timing :=
  { slot := n, nominal := 0, next := 40000, taken := false, lastFrameEnd := some 0, gridStart := 0 }

/-- A set of good parity: 1000 on every voltage, 10 A, a link of 6500 and a bus of 7000. -/
def goodRaw : RawSet :=
  { v := Phases.same ⟨1000, false⟩, i := Phases.same ⟨10, false⟩, link := ⟨6500, false⟩, bus := ⟨7000, false⟩
    parity := true }

/-- The same set with its parity bit wrong. -/
def badRaw : RawSet := { goodRaw with parity := false }

/-- A restorer in READY on the line, locked, with a strobe outstanding and a budget. -/
def ready : State :=
  { plain with
    spt := { lastGood := ⟨Phases.same 1000, Phases.same 10, 6500, 7000⟩, missRun := 0, faultCount := 0
             outstanding := some { index := 10, deadline := 78125 } }
    pru := { Pru.initial with lock := .locked, run := some { start := 0, fEst := 50000, dc := 0 }, index := 11 }
    rsq := { Rsq.initial with state := .ready }
    esa := { Esa.initial with budget := 400 }
    slc := { Slc.initial with membership := .member, timing := some (gridIn 5) } }

/-- READY with a first phase flag: an onset. -/
def atOnset : State :=
  { ready with sdu := { Sdu.initial with flags := ⟨true, false, false⟩, residual := ⟨500, 1000, 1000⟩ } }

/-- An event in INJECT with its window open. -/
def injecting : State :=
  { ready with
    rsq := { Rsq.initial with
      state := .inject, bypassOpen := Phases.same true, bridge := true, eventCounter := 1, event := 1 }
    evc := { Evc.initial with window := true }
    sdu := { Sdu.initial with
      record := { isOpen := true, onsetMask := ⟨true, false, false⟩, sinceMask := ⟨true, false, false⟩
                  rMin := ⟨500, 1000, 1000⟩ } } }

/-- The same event in RELEASE, its classification made, one bypass left open and its wait at a count. -/
def releasing (n : Nat) : State :=
  { injecting with
    rsq := { injecting.rsq with
      state := .release, endCause := .recovered, rampDone := true, bypassOpen := ⟨true, false, false⟩
      waits := ⟨some n, none, none⟩ }
    evc := Evc.initial }

/-- A capture of event 1 whose event is over, with its sets written. -/
def endedCapture (written : Nat) (tail : Option Nat) (test : Bool) : Capture :=
  { making := { onset := { event := 1, frameNumber := 0, position := 0, refAge := 0 }, duration := 5
                ended := none, classed := none }
    written := written, tail := tail, truncated := false, delayed := false, test := test }

/-- A queued opening of event 2. -/
def queuedOpening : Queued :=
  { making := { onset := { event := 2, frameNumber := 0, position := 0, refAge := 0 }, duration := 3, ended := none
                classed := none }
    atOnset := false }

/-- READY with a capture in fill. -/
def filling (c : Capture) : State := { ready with cst := { ready.cst with filling := some c } }

/-- The slow fields of a gateway. -/
def gatewaySlow : Slow := { kind := 1, cls := 0, rating := 0, digest := 0, defaultsFlag := false }

/-- A LIVE entry of a gateway. -/
def gateway : PeerEntry := { PeerEntry.absent with state := .live, slow := some gatewaySlow }

/-- The request field for slot 3 with tag 9. -/
def requestOf (code : BitVec 4) (arg : Word) : BitVec 48 := 3#8 ++ 9#4 ++ code ++ arg

/-- A state in which the gateway of slot 7 has a standing request. -/
def asked (code : BitVec 4) (arg : Word) (s : State) : State :=
  { s with
    slc := { s.slc with peers := s.slc.peers.set 7 gateway }
    rqh :=
      { Rqh.initial with
        slots := Rqh.initial.slots.set 7
          { previous := some (requestOf code arg), confirmed := true, baseline := none, baselinePending := false
            lastTag := none }
        execOpen := true } }

/-- A block of the station in slot 7 with a frame number. -/
def blockOf (slot : BitVec 4) (frame : Word) : Block :=
  { kind := 0, slot := slot, frameNumber := frame
    slow := { kind := 0, cls := 2, rating := 80, digest := digestOf Config.defaults, defaultsFlag := false }
    fast := { Fast.cleared with restorer := 2, demand := 15 } }

/-! Well-formed commands: each check refuses an ill-formed term. -/

theorem test_wellFormed_arrival_order :
    Instr.wellFormed (.arrivalDeadline { order := [.detect, .detect] }) = false ∧
    Instr.wellFormed (.sampleSetArrival 0 goodRaw { order := [.inject, .detect, .inject] }) = false ∧
    Instr.wellFormed (.arrivalDeadline { order := [.detect, .inject] }) = true := by decide

theorem test_wellFormed_arrival_apart :
    Instr.wellFormed (.arrivalDeadline { apart := [.holdoverLimit, .holdoverLimit] }) = false ∧
    Instr.wellFormed (.arrivalDeadline { apart := [.holdoverLimit, .durationExpiry] }) = true := by decide

theorem test_wellFormed_frame_order :
    Instr.wellFormed (.slotStart { order := [.allocate, .allocate] }) = false ∧
    Instr.wellFormed (.slotStart { order := [.exhaust, .allocate] }) = true := by decide

theorem test_wellFormed_slot :
    Instr.wellFormed (.readItem 12 0 0) = false ∧ Instr.wellFormed (.readRecord 12 0 0 0) = false ∧
    Instr.wellFormed (.readPeer 12 0 0 0) = false ∧ Instr.wellFormed (.freeRecords 12 0 1) = false ∧
    Instr.wellFormed (.clearLockout 12 0) = false ∧ Instr.wellFormed (.testCapture 12 0) = false ∧
    Instr.wellFormed (.softReset 12 0) = false ∧ Instr.wellFormed (.badCodeRequest 12 0 8) = false ∧
    Instr.wellFormed (.readItem 11 0 0) = true := by decide +kernel

theorem test_wellFormed_bad_code :
    Instr.wellFormed (.badCodeRequest 0 0 7) = false ∧ Instr.wellFormed (.badCodeRequest 0 0 8) = true := by decide

theorem test_wellFormed_block_length :
    Instr.wellFormed (.blockReceived 0 false (List.replicate 33 0)) = false ∧
    Instr.wellFormed (.blockReceived 0 false (List.replicate 32 0)) = true := by decide +kernel

theorem test_no_word_spells_a_command :
    decodeTableWord 32 0 = none ∧ State.withFetchWord State.reset 32 0 = State.reset := ⟨rfl, rfl⟩

/-! Worked examples of the manual. -/

/-- The check value of the CRC (R179), and the CRC of no bytes. -/
theorem test_crc16 :
    crc16 [0x31#8, 0x32#8, 0x33#8, 0x34#8, 0x35#8, 0x36#8, 0x37#8, 0x38#8, 0x39#8] = 0x29B1#16 ∧
    crc16 [] = 0xFFFF#16 := by decide +kernel

/-- 02 worked example: one residual. -/
theorem test_residual : residualOf 2300 (halfCycleRms 187000000) = 743 ∧ halfCycleRms 187000000 = 1709 := by
  decide +kernel

/-- 01 worked example: one crossing and its correction. -/
theorem test_crossing :
    crossingD 2 (-210) 90 = 27 ∧ crossingD 126 (-400) 200 = -37 ∧
    correctedF 50 50000 27 = 49918 ∧ correctedF 50 50000 (-37) = 50112 := by decide +kernel

/-- 02 worked example: the arrivals n-1 to n+7 of phase B, as over-run, below-run and the two flags after each. -/
theorem test_detectors :
    let step := fun (d : Detector) (x : Int × Nat) => detectorAfter Config.defaults true x.1 0 x.2 d
    let seen := fun (d : Detector) => (d.overRun.toNat, d.belowRun.toNat, d.instFlag, d.rmsFlag)
    let arrivals : List (Int × Nat) :=
      [(40, 1002), (470, 994), (820, 979), (1150, 957), (1440, 929), (1650, 896), (1780, 862), (1800, 830), (1770, 798)]
    ((List.range 9).map (fun n => seen ((arrivals.take (n + 1)).foldl step Detector.initial))) =
      [(0, 0, false, false), (0, 0, false, false), (1, 0, false, false), (2, 0, false, false), (3, 0, true, false),
       (4, 1, true, false), (5, 2, true, false), (6, 3, true, false), (7, 4, true, true)] := by decide +kernel

/-- 02: depth and r_min percent of the record. -/
theorem test_depth :
    let r : OnsetRecord :=
      { isOpen := true, onsetMask := ⟨false, true, false⟩, sinceMask := ⟨false, true, false⟩, rMin := ⟨998, 929, 1003⟩ }
    depth r = 929 ∧ rMinPercent r = 92 ∧ rMinPercent { r with isOpen := false } = 100 := by decide

/-- 06 worked examples: raw values, link limits, ramp factors and the grant step. -/
theorem test_injection_chain :
    rawPresag 3000 1500 = 1500 ∧ rawInphase 2300 1380 2300 1200 = 800 ∧ rawInphase 2300 1380 2300 (-1200) = -800 ∧
    rawInphase 2300 1380 2300 (-1199) = -799 ∧ rawInphase 2300 150 2310 280 = 2532 ∧
    rawInphase 2300 150 2300 280 = 2520 ∧
    linkLimitOf Config.defaults 6500 = 2925 ∧ linkLimitOf Config.defaults 4200 = 1890 ∧
    saturate 1890 (saturate 2000 2532) = 1890 ∧ saturate 1890 (saturate 2000 (-2532)) = -1890 ∧
    (⟨1500, -1100, -620⟩ : Phases Int).map (scale 20316) = ⟨929, -681, -384⟩ ∧ scale 20316 (-1500) = -929 ∧
    power ⟨929, -681, -384⟩ ⟨400, -420, -700⟩ = 926420 := by decide +kernel

/-- 06 worked example: the first, 64th, 127th and 128th set of the release ramp. -/
theorem test_release_ramp :
    let at' := fun n => (rampStep { releasing 0 with inc := { Inc.initial with rampCount := n } }).inc.ramp
    at' 0 = 32512 ∧ at' 63 = 16384 ∧ at' 126 = 256 ∧ at' 127 = 0 ∧ at' 128 = 0 ∧
    scale 20316 (scale 32512 1500) = 922 ∧ scale 20316 (scale 16384 1500) = 464 ∧ scale 20316 (scale 256 1500) = 6 := by
  decide +kernel

/-- 06 worked example: the energy of 640 sets. -/
theorem test_joules : joules { plain with inc := { Inc.initial with energy := 926420 * 640 } } = 9264 := by
  decide +kernel

/-- 04 worked examples: the budget, the grants of class 1 and the ratio, and the demand of a window. -/
theorem test_sharing :
    let c := { Config.defaults with pMax := 600, rating := 200 }
    let ts : List Term := [⟨false, 0, 180⟩, ⟨false, 0, 120⟩, ⟨true, 1, 150⟩, ⟨false, 1, 90⟩, ⟨false, 2, 60⟩]
    budgetOf c 6500 = 450 ∧ budgetOf c 6420 = 426 ∧ ts.map (grantOf ts 450) = [180, 120, 93, 56, 0] ∧
    grantRatio ts 450 = 20316 ∧
    (setDemand { injecting with
      cfl := { Cfl.initial with settings := c }
      inc := { Inc.initial with pDem := 4485600, nDem := 3 } }).inc.demand = 150 := by decide +kernel

/-- 07 worked example: three trips. -/
theorem test_three_trips :
    let l := [10200, 10480, 10830].foldl addOverEnd ([] : List Word)
    callsLockout l = false ∧ addOverEnd l 10950 = [10480, 10830, 10950] ∧ callsLockout (addOverEnd l 10950) = true := by
  decide

/-- 08 worked example: the ring after step 4, FREE_RECORDS 3 and FREE_RECORDS 9. -/
theorem test_ring :
    let c : Cst := { Cst.initial with layout := some .code1, oldest := 2, fill := 2, full := 8, missed := 3 }
    let c6 := freeSlots 3 (missCapture c)
    let c8 := freeSlots 9 { c6 with full := 6, fill := 3 }
    c6.oldest = 5 ∧ c6.full = 5 ∧ c6.missed = 4 ∧ slotState c6 .code1 2 = .free ∧ slotState c6 .code1 4 = .free ∧
    slotState c6 .code1 5 = .full ∧ slotState c6 .code1 1 = .full ∧ c8.oldest = 3 ∧ c8.full = 0 := by decide

/-- 10 worked example: entry 0's bytes, and the clamped and void entries of the start-up. -/
theorem test_table_entries :
    decodeEntry [0x07#8, 0x01#8, 0x90#8, 0x03#8, 0xE8#8, 0x39#8, 0x00#8, 0x00#8] =
      { entry := { classMatch := .grid, phaseSet := 7, lo := 400, hi := 1000, method := .presag, override := none
                   capture := true, limit := 0, endFlag := false }
        clamped := false } ∧
    isVoid (decodeEntry [0x27#8, 0x03#8, 0x84#8, 0x02#8, 0x58#8, 0xB9#8, 0x00#8, 0x00#8]).entry = true ∧
    (decodeEntry [0xC7#8, 0x00#8, 0x00#8, 0x07#8, 0xD0#8, 0x79#8, 0x00#8, 0x00#8]).entry.hi = 1500 ∧
    (decodeEntry [0xC7#8, 0x00#8, 0x00#8, 0x07#8, 0xD0#8, 0x79#8, 0x00#8, 0x00#8]).clamped = true := by decide +kernel

/-- 10 worked example: the clamps of the start-up. -/
theorem test_clamps :
    let c := clampCross (clampRanges { Config.defaults with
      vKnee := 7000, vFloor := 6950, sagThreshold := 900, recoverThreshold := 880, linkReady := 6000, linkMin := 7000
      iTrip := 5000 })
    c.iTrip = 4000 ∧ c.recoverThreshold = 910 ∧ c.vFloor = 6900 ∧ c.linkMin = 5900 := by decide +kernel

/-- 11 worked example: bytes of a block of slot 5 in INJECT. -/
theorem test_block_bytes :
    let b : Block :=
      { kind := 0, slot := 5, frameNumber := 0
        slow := { kind := 0, cls := 1, rating := 200, digest := 0, defaultsFlag := false }
        fast := { Fast.cleared with
          restorer := 3, lock := 1, active := true, sagNow := ⟨true, true, false⟩, demand := 150, grant := 93
          eventClass := 1
          request := { requester := 11, tag := 4, status := .ok, data := 6 : Reply }.field } }
    let x := encodeBlock b
    x.length = 32 ∧ byteAt x 0 = 0xA5#8 ∧ byteAt x 1 = 0x05#8 ∧ byteAt x 6 = 0x6A#8 ∧ byteAt x 7 = 0xE1#8 ∧
    halfAt x 8 = 0x0096#16 ∧ halfAt x 12 = 0x005D#16 ∧
    (x.drop 24).take 6 = [0x0B#8, 0x41#8, 0x00#8, 0x00#8, 0x00#8, 0x06#8] ∧ blockValid x = true ∧
    decodeBlock x = b := by decide +kernel

/-- 03 worked example: the realignment of P at 970 microseconds by Q's block of 690 in slot 2. -/
theorem test_realignment :
    let p : State :=
      { plain with
        cfl := { plain.cfl with strap := 6 }
        slc := { Slc.initial with
          membership := .member, frameNumber := 1, misalignRun := 1
          candidate := some { start := 690000, slot := 2, frameNumber := 1 }
          timing := some { slot := 11, nominal := 930000, next := 970000, taken := false
                           lastFrameEnd := some 490000, gridStart := 0 }
          peers := Slc.initial.peers.set 2
            (PeerEntry.take 0 (blockOf 2 1) PeerEntry.absent) } }
    let u := after (exec (.slotStart {}) p)
    u.slc.frameNumber = 2 ∧ u.slc.misalignRun = 0 ∧ u.slc.membership = .member ∧
    u.slc.timing = some
      { slot := 9, nominal := 970000, next := 1010000, taken := false, lastFrameEnd := some 970000
        gridStart := 690000 } := by decide +kernel

/-- 09 worked example: CLEAR_LOCKOUT with the DESAT cleared, answered OK with data 1. -/
theorem test_clear_lockout :
    let u := after (exec (.clearLockout 7 9) (asked 5 0 { plain with rsq := { Rsq.initial with state := .lockout } }))
    u.rsq.state = .charge ∧ u.rqh.reply = { requester := 7, tag := 9, status := .ok, data := 1 } := by decide +kernel

/-! Witnesses: states and operands that meet the hypotheses of each statement, clause by clause. -/

theorem witness_StepRunsFrontCommand :
    ({ State.reset with pending := [.strobe] } : State).pending = .strobe :: [] ∧ State.reset.pending = [] := by decide

theorem witness_EveryCommandAnswers :
    let c : Instr := .strobe
    c ≠ .powerOn ∧ c ≠ .resetAsserted ∧ ∀ t straps, c ≠ .resetReleased t straps := by
  refine ⟨by decide, by decide, ?_⟩
  intro t straps h
  cases h

/-- A soft reset that is due, with and without a capture in fill. -/
def quiet (f : Option Capture) : State :=
  { plain with
    rsq := { Rsq.initial with quiesce := true, eventCounter := 9 }
    cst := { Cst.initial with layout := some .code1, filling := f } }

theorem witness_softReset :
    softResetReady (quiet none) = true ∧ (quiet none).cst.filling = none ∧
    softResetReady (quiet (some (endedCapture 200 none true))) = true ∧
    (quiet (some (endedCapture 200 none true))).cst.layout = some .code1 ∧
    (quiet (some (endedCapture 200 none true))).cst.filling = some (endedCapture 200 none true) ∧
    softResetReady plain = false := by decide

/-- The cut-off test capture is filed with the words of its summary, at the summary address of the fill slot. -/
theorem witness_softReset_summary :
    let s := quiet (some (endedCapture 200 none true))
    let u := after (exec (.softResetCarriedOut 7 5) s)
    MemoryCanonical s ∧ u.cst.full = 1 ∧ u.cst.fill = 1 ∧ u.cfl.loading = true ∧ u.rsq.eventCounter = 9 ∧
    (List.range 16).all (fun n => recordWord u.cst .code1 0 n =
      (summaryWords (testSummary { s with now := 7 } (endedCapture 200 none true) true)).getD n 0) = true := by
  refine ⟨rfl, ?_⟩
  decide +kernel

theorem witness_InjectionInitialState : softResetReady (quiet none) = true := by decide

theorem witness_ResetReleasedStartsUp :
    State.reset.pins.resetHeld = true ∧ plain.pins.resetHeld = false := by decide

/-- The state after the release of RESET: the load is in flight. -/
def loadingState : State := after (exec (.resetReleased 0 5) State.reset)

/-- The bytes of an image with these settings and the entries of a response table, its CRC good. -/
def imageOf (c : Config.Settings) (table : List Byte) : List Byte :=
  let body := [c.fNom, c.vNom, c.pMax, c.vKnee, c.vFloor, c.k, c.cls, c.rating, c.sagThreshold, c.recoverThreshold,
    c.rmsPersistence, c.instThreshold, c.instPersistence, c.recoverPersistence, c.uMax, c.turns, c.linkReady,
    c.linkMin, c.iTrip, c.rampLength, c.refAgeLimit, c.holdoverLimit, c.layoutCode, c.postTail].flatMap
      (fun n => halfBytes (BitVec.ofNat 16 n))
  let x := [0x00#8, 0x01#8] ++ halfBytes (BitVec.ofNat 16 (54 + table.length)) ++ body ++ table
  x ++ halfBytes (crc16 x)

/-- An image whose V_floor stands 50 under its V_knee. -/
def sampleImage : List Byte := imageOf { Config.defaults with vFloor := 6950 } []

/-- An image of layout 2 with three entries: a void one, one whose end flag is set and whose upper limit is clamped, and
one past the end. -/
def tableImage : List Byte :=
  imageOf { Config.defaults with layoutCode := 2 }
    [0x27#8, 0x03#8, 0x84#8, 0x02#8, 0x58#8, 0xB9#8, 0x00#8, 0x00#8,
     0xC7#8, 0x00#8, 0x00#8, 0x07#8, 0xD0#8, 0x79#8, 0x00#8, 0x00#8,
     0x07#8, 0x01#8, 0x90#8, 0x03#8, 0xE8#8, 0x39#8, 0x00#8, 0x00#8]

theorem witness_SettingsComeIntoForce :
    loadingState.cfl.loading = true ∧ loadingState.slc.membership = .down ∧ loadingState.rsq.state = .off ∧
    plain.cfl.loading = false ∧ ownSlot loadingState ≠ some 6 := by decide +kernel

set_option maxRecDepth 20000 in
/-- A void entry sets its bit of the mask; a layout that stays in force while another is asked for is held. -/
theorem witness_SettingsComeIntoForce_void_and_layout :
    let held : State := { loadingState with cst := { loadingState.cst with layout := some .code1 } }
    let u := after (exec (.loadCompletion 9 tableImage) held)
    u.cfl.voidMask = 1 ∧ u.cfl.layoutHeld = true ∧ u.cst.layout = some .code1 ∧ u.evc.unused.length = 1 ∧
    (after (exec (.loadCompletion 9 tableImage) loadingState)).cfl.layoutHeld = false := by decide +kernel

set_option maxRecDepth 20000 in
theorem witness_ImageChecksInOrder :
    loadingState.cfl.loading = true ∧ sampleImage.length = 54 ∧ halfAt sampleImage 0 = 1 ∧
    (halfAt sampleImage 2).toNat = 54 ∧ crc16 (sampleImage.take 52) = halfAt sampleImage 52 ∧
    (loadImage sampleImage).settings = { Config.defaults with vFloor := 6900 } ∧
    (loadImage sampleImage).clamped = true ∧
    (let u := after (exec (.loadCompletion 9 tableImage) loadingState)
     u.cfl.source = .image ∧ u.evc.table.length = 2 ∧ u.evc.unused.length = 1 ∧ u.cfl.clamped = true ∧
     (u.evc.table.map TableEntry.hi) = [600, 1500] ∧ u.settings = { Config.defaults with layoutCode := 2 }) := by
  decide +kernel

set_option maxRecDepth 20000 in
theorem witness_image_of_bad_crc :
    crc16 ((sampleImage.set 5 0x00#8).take 52) ≠ halfAt (sampleImage.set 5 0x00#8) 52 ∧
    (loadImage (sampleImage.set 5 0x00#8)).reason = .badCrc ∧ (sampleImage.take 53).length < 54 ∧
    (loadImage (sampleImage.take 53)).reason = .noAnswer := by decide +kernel

theorem witness_image_header :
    let reason := fun image => (after (exec (.loadCompletion 9 image) loadingState)).cfl.reason
    reason [0x00#8, 0x01#8, 0x00#8] = .noAnswer ∧ reason [0x00#8, 0x02#8, 0x00#8, 0x36#8] = .badFormat ∧
    reason [0x00#8, 0x01#8, 0x00#8, 0x35#8] = .badFormat ∧ reason [0x00#8, 0x01#8, 0x00#8, 0x97#8] = .badFormat ∧
    reason [0x00#8, 0x01#8, 0x00#8, 0x37#8] = .badFormat ∧ reason [0x00#8, 0x01#8, 0x00#8, 0x36#8] = .noAnswer ∧
    reason [0x00#8, 0x01#8, 0x00#8, 0x96#8] = .noAnswer := by decide +kernel

theorem defaultsLegal : SettingsLegal Config.defaults := by
  constructor <;> simp [Within, Config.defaults]

theorem witness_ClampedSettingsAreLegal : SettingsLegal Config.defaults := defaultsLegal

/-- A state in which every property of Safety holds, with an event in INJECT and a capture in fill. -/
def safeInject : State := { injecting with cst := { injecting.cst with filling := some (endedCapture 300 none false) } }

/-- The step of that state that the invariants are shown on: an arrival deadline waits. -/
def safeStart : State := { safeInject with pending := [.arrivalDeadline {}] }

theorem witness_invariants_of_the_restorer :
    OutputsAgree safeStart ∧ FractionsBounded safeStart ∧ ReadinessHolds safeStart ∧
    ∃ u, step safeStart = .next u ∧ u.rsq.state = .inject := by
  refine ⟨⟨by decide, by decide, by decide, by decide, by decide⟩,
    ⟨by decide, by decide, by decide, by decide, by decide⟩, ⟨by decide, by decide, by decide⟩,
    after (step safeStart), rfl, by decide +kernel⟩

theorem witness_invariants_of_the_store :
    MemoryCanonical safeStart ∧ RingAgrees safeStart ∧ ConfigurationSound safeStart ∧ PeerTableSound safeStart ∧
    ∃ u, step safeStart = .next u ∧ u.cst.filling.isSome = true := by
  refine ⟨rfl, ⟨by decide +kernel, by decide, by decide, by decide, by decide⟩, ⟨defaultsLegal, by decide +kernel⟩,
    ⟨by decide +kernel, ?_⟩, after (step safeStart), rfl, by decide +kernel⟩
  intro e he
  have h : e = PeerEntry.absent := List.eq_of_mem_replicate he
  subst h
  exact ⟨fun h => (by cases h), fun h => (by cases h), fun _ => rfl⟩

theorem witness_StrobeRaised :
    let r : Run := { start := 0, fEst := 50000, dc := 0 }
    let s : State := { ready with spt := { ready.spt with outstanding := none } }
    s.pru.run = some r ∧ s.spt.outstanding = none ∧ s.pru.index ≠ 0 ∧
    ({ s with pru := { s.pru with index := 0 } } : State).pru.index = 0 ∧
    plain.pru.run = none ∧ plain.spt.outstanding = none ∧
    exec (.arrivalDeadline {}) plain = .next plain ∧ 0 < r.fEst ∧ r.strobeAt 1 = 156250 ∧ r.strobeAt 128 = 20000000 := by
  refine ⟨rfl, rfl, by decide, rfl, rfl, rfl, rfl, by decide, by decide +kernel, by decide +kernel⟩

/-- An event that ends after the strobe of index 0 and before its set ends in the cycle of that strobe. -/
theorem test_event_end_before_first_set :
    let strobed := after (exec .strobe { injecting with
      spt := { injecting.spt with outstanding := none }
      pru := { injecting.pru with index := 0, cycle := { injecting.pru.cycle with eventEnded := true } } })
    let ended := after (exec (.faultInputActive 20000000 .overtemp .afterNo) strobed)
    let first := after (exec (.sampleSetArrival 20000001 goodRaw {}) ended)
    strobed.pru.cycle.eventEnded = false ∧ ended.pru.cycle.eventEnded = true ∧ first.pru.index = 1 ∧
    first.pru.cycle.eventEnded = true := by decide +kernel

theorem witness_GoodSetTaken :
    ready.spt.outstanding = some { index := 10, deadline := 78125 } ∧ max ready.now 78124 < 78125 ∧
    parityGood goodRaw = true ∧ (after (exec (.sampleSetArrival 78124 goodRaw {}) ready)).spt.missRun = 0 := by
  decide +kernel

theorem witness_MissingSetHeld :
    parityGood badRaw = false ∧ max ready.now 78124 < 78125 ∧ 78125 ≤ max ready.now 78125 ∧
    plain.spt.outstanding = none ∧
    (after (exec (.sampleSetArrival 78125 goodRaw {}) ready)).spt.faultCount = 1 := by decide +kernel

theorem witness_SaturationWithinLimits :
    let raw : RawSet :=
      { v := ⟨⟨10000, false⟩, ⟨0x8000, true⟩, ⟨10001, false⟩⟩, i := ⟨⟨0xF05F, false⟩, ⟨4000, false⟩, ⟨0, true⟩⟩
        link := ⟨0, true⟩, bus := ⟨12001, false⟩, parity := false }
    let other : RawSet :=
      { raw with v := ⟨⟨0xD8F0, false⟩, ⟨0xD8EF, false⟩, ⟨1, true⟩⟩, link := ⟨12000, false⟩, bus := ⟨12000, false⟩ }
    (raw.v.a.overRange = false ∧ raw.v.a.word.toInt.natAbs ≤ 10000) ∧ raw.v.b.overRange = true ∧
    raw.link.overRange = true ∧
    saturatedSet raw = ⟨⟨10000, -10000, 10000⟩, ⟨-4000, 4000, 4000⟩, 12000, 12000⟩ ∧
    saturatedSet other = ⟨⟨-10000, -10000, 10000⟩, ⟨-4000, 4000, 4000⟩, 12000, 12000⟩ := by decide +kernel

/-- A detector set by the RMS test alone, and one set by the departure alone. -/
theorem witness_DetectionOfAnArrival :
    let c := Config.defaults
    c.sagThreshold < c.recoverThreshold ∧ 899 < c.sagThreshold ∧ (c.sagThreshold ≤ 900 ∧ 900 < c.recoverThreshold) ∧
    (c.sagThreshold ≤ 949 ∧ 949 < c.recoverThreshold) ∧ c.recoverThreshold ≤ 950 ∧
    Detector.initial.rmsFlag = false ∧ ({ Detector.initial with rmsFlag := true } : Detector).rmsFlag = true ∧
    c.instThreshold < ((601 : Int) - 0).natAbs ∧ ((600 : Int) - 0).natAbs ≤ c.instThreshold ∧
    ({ Detector.initial with instFlag := true } : Detector).instFlag = true := by decide

theorem witness_FrequencyCorrectionInBand :
    (bandLow 50 : Int) ≤ 50000 - Int.tdiv (50000 * 27) 16384 ∧ (50000 : Int) - Int.tdiv (50000 * 27) 16384 ≤ bandHigh 50 ∧
    correctedF 50 47501 32 = 47500 ∧ correctionClamped 50 47501 32 = true := by decide +kernel

/-- The last index of a good cycle, with its one crossing at a position. -/
def cycleOf (d : Int) (lock : LockState) (good held : Nat) : State :=
  { ready with
    pru := { ready.pru with
      lock := lock, goodCount := BitVec.ofNat 16 good, holdoverCount := held
      cycle := { Cycle.start with crossings := 1, firstD := some d } } }

theorem witness_FrequencyCorrection_clauses :
    crossingD 0 (-1) 0 = 0 ∧ crossingD 127 (-1) 0 = -16 ∧
    (let s : State := { ready with pru := { ready.pru with prevVA := some (-1) } }
     (noteSet 0 (Phases.same 0) false s).pru.cycle.crossings = 1 ∧
     (noteSet 5 (Phases.same (-1)) true s).pru.cycle.missing = true ∧ ready.pru.prevVA = none) ∧
    cycleGood (cycleOf 32 .locked 0 0) = true ∧ cycleGood (cycleOf 33 .locked 0 0) = false ∧
    eventActive (cycleOf 32 .locked 0 0) = false ∧
    (cycleEndPru false (cycleOf 32 .locked 0 0)).dc = 32 ∧ (cycleEndPru false (cycleOf 33 .locked 0 0)).dc = 0 ∧
    (cycleEndPru false (cycleOf 33 .acquire 0 0)).dc = 33 ∧ (bandHigh 50 : Int) < 52500 - Int.tdiv (52500 * -1) 16384 := by
  decide +kernel

/-- HOLDOVER with its count at the limit. -/
def atLimit : State := { ready with pru := { ready.pru with lock := .holdover, holdoverCount := 250 } }

theorem witness_HoldoverLimitEntersAcquire :
    (atLimit.pru.lock = .holdover ∧ atLimit.settings.holdoverLimit ≤ atLimit.pru.holdoverCount ∧
      eventActive atLimit = false) ∧
    ready.pru.lock ≠ .holdover ∧
    ({ atLimit with pru := { atLimit.pru with holdoverCount := 249 } } : State).pru.holdoverCount
      < atLimit.settings.holdoverLimit ∧
    eventActive injecting = true := by decide

/-- The rows of the lock states at their counts; the cycle end is the last work when the limit is left apart. -/
theorem witness_lock_rows :
    (cycleEndPru false (cycleOf 0 .acquire 15 0)).lock = .locked ∧
    (cycleEndPru false (cycleOf 0 .acquire 14 0)).lock = .acquire ∧
    (cycleEndPru false (cycleOf 33 .locked 20 0)).lock = .holdover ∧
    (cycleEndPru false (cycleOf 0 .holdover 15 249)).lock = .locked ∧
    (cycleEndPru false (cycleOf 0 .holdover 14 248)).lock = .holdover ∧
    (cycleEndPru false (cycleOf 0 .holdover 14 249)).lock = .acquire ∧
    (cycleEndPru true (cycleOf 0 .holdover 14 249)).lock = .holdover ∧
    (cycleEndPru true (cycleOf 0 .holdover 14 249)).holdoverCount = 250 ∧
    arrivalOrder { order := [.cycleEnd, .detect], apart := [.holdoverLimit] } =
      (arrivalOrder { order := [.cycleEnd, .detect] }).filter (· ≠ .cycleEnd) ++ [.cycleEnd] ∧
    (cycleEndPru false (cycleOf 0 .locked 0 0)).ref.valid = true ∧
    (cycleEndPru false (cycleOf 33 .locked 0 0)).ref.valid = false := by decide +kernel

theorem injectingAgrees : OutputsAgree { injecting with spt := { injecting.spt with missRun := 3 } } :=
  ⟨by decide, by decide, by decide, by decide, by decide⟩

theorem witness_SenseFaultLocksOut :
    let s : State := { injecting with spt := { injecting.spt with missRun := 3 } }
    s.spt.outstanding = some { index := 10, deadline := 78125 } ∧ s.spt.missRun = 3 ∧ s.rsq.state ≠ .off ∧
    s.pins.enable = true ∧ (after (exec (.arrivalDeadline {}) s)).rsq.state = .lockout := by decide +kernel

/-- A test capture in fill in OFF. -/
def testFilling : State :=
  { filling (endedCapture 128 none true) with rsq := Rsq.initial }

theorem witness_ArrivalWritesItsPosition :
    testFilling.spt.outstanding = some { index := 10, deadline := 78125 } ∧ max testFilling.now 5 < 78125 ∧
    parityGood goodRaw = true ∧ MemoryCanonical testFilling ∧ testFilling.rsq.state = .off ∧
    testFilling.cst.layout = some .code1 ∧ testFilling.cst.filling = some (endedCapture 128 none true) ∧
    (endedCapture 128 none true).test = true ∧ 128 + 1 < Layout.sets .code1 ∧
    Memory.read (after (exec (.sampleSetArrival 5 goodRaw {}) testFilling)).cst.mem 1537 = 0xE8#8 := by
  refine ⟨rfl, by decide, by decide +kernel, rfl, rfl, rfl, rfl, rfl, by decide, by decide +kernel⟩

/-- The last position is written; a set past it truncates a capture whose event goes on; a tail and a queued opening
count the arrival; the set that fills a test capture's slot files its record. -/
theorem witness_capture_positions :
    let set : SampleSet := ⟨Phases.same 1000, Phases.same 10, 6500, 7000⟩
    (captureSet set (filling (endedCapture 1023 none false))).cst.filling.map Capture.written = some 1024 ∧
    ((captureSet set (filling (endedCapture 1024 none false))).cst.filling.map
      (fun c => (c.written, c.truncated))) = some (1024, true) ∧
    ((captureSet set (filling (endedCapture 300 (some 4) false))).cst.filling.map Capture.tail) = some (some 5) ∧
    ((captureSet set { filling (endedCapture 300 (some 4) false) with cst :=
      { (filling (endedCapture 300 (some 4) false)).cst with queued := some queuedOpening } }).cst.queued.map
        (fun q => q.making.duration)) = some 4 ∧
    (let s : State := { testFilling with
       cst := { testFilling.cst with filling := some (endedCapture 1023 none true) } }
     captureDue s = false ∧ captureDue (captureSet (saturatedSet goodRaw) s) = true ∧ s.cst.queued = none ∧
     (after (exec (.sampleSetArrival 5 goodRaw {}) s)).cst.full = 1) := by decide +kernel

theorem witness_EnableInputByState :
    (after (exec (.enableAsserted 0) plain)).rsq.state = .charge ∧
    (after (exec (.enableAsserted 0) { plain with pins := { plain.pins with overtemp := true } })).rsq.state
      = .lockout ∧
    ready.rsq.state = .ready ∧ injecting.rsq.state = .inject ∧ (releasing 0).rsq.state = .release ∧
    (after (exec (.enableDeasserted 0) injecting)).rsq.endCause = .disabled := by decide +kernel

theorem witness_FaultInputsTakeToLockout :
    faultActive injecting = false ∧ eventActive injecting = true ∧ faultActive ready = false ∧
    ready.rsq.state = .ready ∧ plain.rsq.state = .off ∧
    faultActive { ready with pins := { ready.pins with overtemp := true } } = true ∧
    (after (exec (.faultInputActive 0 (.desat .b) .afterNo) injecting)).rsq.lastEndCause = .fault ∧
    (Phase.a ≠ Phase.b) := by decide +kernel

/-- An event with its own capture in fill, whose window is open or closed and whose table's one entry says no. -/
def endingWith (window : Bool) (c : Capture) : State :=
  { injecting with
    evc := { injecting.evc with
      window := window
      table := [{ classMatch := .any, phaseSet := 1, lo := 0, hi := 1500, method := .inphase, override := none
                  capture := false, limit := 0, endFlag := true }] }
    cst := { injecting.cst with filling := some c } }

theorem witness_event_end_elsewhere :
    (handEnd .apart (endingWith false (endedCapture 300 none false))).cst.filling.map Capture.tail = some (some 0) ∧
    (handEnd .apart (endingWith true (endedCapture 300 none false))).cst.filling = none ∧
    (handEnd .apart (endingWith true (endedCapture 300 none true))).cst.filling = some (endedCapture 300 none true) ∧
    (handEnd .apart (endingWith true (endedCapture 300 none false))).evc.eventClass = .localOnly ∧
    (handEnd .beforeNo (endingWith true (endedCapture 1024 none false))).cst.full = 1 ∧
    (handEnd .afterNo (endingWith true (endedCapture 1024 none false))).cst.full = 0 ∧
    (endingWith true (endedCapture 1024 none false)).cst.layout = some .code1 ∧
    (endedCapture 1024 none false).making.onset.event = injecting.rsq.event ∧
    (let q : Queued := { queuedOpening with making := (endedCapture 0 none false).making }
     let s : State := { injecting with cst := { injecting.cst with queued := some q } }
     (handEnd .apart s).cst.queued.map (fun q => q.making.ended.isSome) = some true) := by decide +kernel

theorem witness_OnsetTaken :
    onsetHere atOnset = true ∧ 0 < atOnset.esa.budget ∧ atOnset.settings.k ≠ 0 ∧
    (detect .afterNo atOnset).rsq.state = .inject ∧
    (let s : State := { atOnset with cfl := { atOnset.cfl with settings := { Config.defaults with k := 0 } } }
     onsetHere s = true ∧ s.settings.k = 0 ∧ (detect .afterNo s).evc.eventClass = .grid) := by decide +kernel

/-- Three arrivals below the sag threshold stand behind phase A; the set that brings the onset is the fourth. -/
def beforeOnset : State :=
  { ready with sdu := { Sdu.initial with
      history := List.replicate 128 (Phases.same 2300)
      detectors := ⟨{ Detector.initial with belowRun := 3 }, Detector.initial, Detector.initial⟩ } }

/-- A set of good parity with phase A at 0 and the others at 2300. -/
def sagRaw : RawSet :=
  { goodRaw with v := ⟨⟨0, false⟩, ⟨2300, false⟩, ⟨2300, false⟩⟩, parity := true }

theorem witness_OnsetTaken_by_a_set :
    let s : State := { beforeOnset with cfl := { beforeOnset.cfl with settings :=
      { Config.defaults with sagThreshold := 980, recoverThreshold := 1000, vNom := 2350 } } }
    s.spt.outstanding = some { index := 10, deadline := 78125 } ∧ max s.now 5 < 78125 ∧ parityGood sagRaw = true ∧
    onsetHere (takeSet 10 (some (saturatedSet sagRaw)) (settleDue (s.moveTo 5))) = true ∧ 0 < s.esa.budget ∧
    s.settings.k ≠ 0 ∧ (after (exec (.sampleSetArrival 5 sagRaw {}) s)).rsq.state = .inject := by decide +kernel

theorem witness_OnsetRefused :
    let s : State := { atOnset with esa := Esa.initial }
    onsetHere s = true ∧ s.esa.budget = 0 ∧ (detect .afterNo s).rsq.state = .ready := by decide +kernel

theorem witness_ResagReturnsToInject :
    let s : State := { releasing 5 with sdu := { (releasing 5).sdu with flags := ⟨false, true, false⟩ } }
    resagHere s = true ∧ s.evc.withdrawn = false ∧ s.pins.enable = true ∧
    (let w : State := { s with evc := { s.evc with withdrawn := true } }
     resagHere w = true ∧ w.evc.withdrawn = true ∧ (detect .afterNo w).rsq.state = .release) := by decide +kernel

/-- The second set over I_trip, with an overcurrent end list. -/
def overTwice (ends : List Word) (cycle : Word) (link : Nat) : State :=
  { injecting with
    spt := { injecting.spt with lastGood := ⟨Phases.same 0, ⟨-1201, 0, 0⟩, link, 7000⟩ }
    rsq := { injecting.rsq with overRun := 1, overEnds := ends, cycleCount := cycle } }

theorem witness_OvercurrentEndsEvent :
    (let s := overTwice [10200, 10480] 10700 6000
     eventActive s = true ∧ s.rsq.onsetArrival = false ∧ s.rsq.overRun = 1 ∧
     s.settings.iTrip < (s.spt.lastGood.i.get .a).natAbs ∧
     callsLockout (addOverEnd s.rsq.overEnds s.rsq.cycleCount) = true) ∧
    (let s := overTwice [10200, 10480] 10701 6000
     callsLockout (addOverEnd s.rsq.overEnds s.rsq.cycleCount) = false ∧ s.pins.enable = true ∧
     s.settings.linkReady ≤ s.spt.lastGood.link) ∧
    (let s := overTwice [] 1 5999
     callsLockout (addOverEnd s.rsq.overEnds s.rsq.cycleCount) = false ∧ s.pins.enable = true ∧
     s.spt.lastGood.link < s.settings.linkReady) ∧
    (let s : State := { overTwice [] 1 5999 with pins := { plain.pins with enable := false } }
     s.pins.enable = false ∧ s.rsq.overRun = 1) := by decide

theorem witness_CloseWaitTimeoutCloses :
    ((releasing 64).rsq.state = .release ∧ (releasing 64).rsq.waits.get .a = some 64 ∧
      (releasing 64).rsq.bypassOpen.get .a = true ∧ ((releasing 64).rsq.bypassOpen.set .a false).any = false ∧
      (after (exec (.closeWaitTimeout .a .afterNo) (releasing 64))).rsq.state = .ready) ∧
    (let s : State := { releasing 64 with rsq := { (releasing 64).rsq with bypassOpen := ⟨true, true, false⟩ } }
     s.rsq.bypassOpen.get .a = true ∧ (s.rsq.bypassOpen.set .a false).any = true) ∧
    (releasing 63).rsq.waits.get .a = some 63 ∧ (releasing 64).rsq.waits.get .b = none ∧
    ready.rsq.state ≠ .release := by decide +kernel

theorem witness_DurationExpiryLeavesInject :
    let s : State := { injecting with evc := { injecting.evc with expiryDue := true } }
    s.evc.expiryDue = true ∧ s.rsq.state = .inject ∧
    ({ releasing 0 with evc := { Evc.initial with expiryDue := true } } : State).rsq.state ≠ .inject ∧
    injecting.evc.expiryDue = false := by decide

/-- The tests of an arrival at their boundaries. -/
theorem witness_restorer_tests :
    let linked := fun (s : State) (link : Nat) =>
      ({ s with spt := { s.spt with lastGood := { s.spt.lastGood with link := link } } } : State)
    let run := fun (n : Nat) => ({ injecting with rsq := { injecting.rsq with linkLow := n } } : State)
    let back := fun (n : Nat) => ({ injecting with sdu := { injecting.sdu with
      residual := Phases.same 950, recovery := n } } : State)
    let s : State := { ready with rsq := { Rsq.initial with state := .charge } }
    (serviceTest (linked s 6000)).rsq.state = .ready ∧ (serviceTest (linked s 5999)).rsq.state = .charge ∧
    (serviceTest (linked ready 3999)).rsq.state = .charge ∧ (serviceTest (linked ready 4000)).rsq.state = .ready ∧
    (linkRunTest (linked (run 3) 4000)).rsq.linkLow = 0 ∧ (linkRunTest (linked (run 2) 3999)).rsq.state = .inject ∧
    (linkRunTest (linked (run 3) 3999)).rsq.endCause = .exhausted ∧
    (exhaustTest { injecting with esa := { injecting.esa with zeroCount := 2 } }).rsq.endCause = .exhausted ∧
    exhaustTest { injecting with esa := { injecting.esa with zeroCount := 1 } } =
      { injecting with esa := { injecting.esa with zeroCount := 1 } } ∧
    (detect .afterNo (back (injecting.settings.recoverPersistence - 1))).rsq.endCause = .recovered ∧
    (detect .afterNo (back (injecting.settings.recoverPersistence - 2))).rsq.state = .inject ∧
    (detect .afterNo { back 5 with sdu := { (back 5).sdu with residual := ⟨950, 949, 950⟩ } }).sdu.recovery = 0 ∧
    (s.rsq.state = .charge ∧ s.spt.outstanding = some { index := 10, deadline := 78125 } ∧ onLine s = true ∧
      s.settings.linkReady ≤ (saturatedSet goodRaw).link ∧
      (after (exec (.sampleSetArrival 5 goodRaw {}) s)).rsq.state = .ready) ∧
    (let low : RawSet := { goodRaw with link := ⟨0, false⟩ }
     parityGood low = true ∧ (saturatedSet low).link < ready.settings.linkMin ∧
     onsetHere (takeSet 10 (some (saturatedSet low)) (settleDue (ready.moveTo 5))) = false ∧
     (after (exec (.sampleSetArrival 5 low {}) ready)).rsq.state = .charge) := by decide +kernel

theorem witness_BudgetAndOwnDemand :
    let c := Config.defaults
    c.vFloor < c.vKnee ∧ budgetOf c 7000 = 400 ∧ budgetOf c 6999 = 399 ∧ budgetOf c 6000 = 200 ∧ budgetOf c 5001 = 0 ∧
    budgetOf c 5000 = 0 ∧ 0 < injecting.settings.rating ∧ eventActive ready = false ∧ eventActive injecting = true ∧
    injecting.inc.nDem = 0 ∧
    (let s : State := { injecting with inc := { Inc.initial with pDem := 10001, nDem := 1 } }
     0 < s.inc.nDem ∧ 0 < s.inc.pDem ∧ (setDemand s).inc.demand = 2 ∧ (setDemand s).inc.demand < s.settings.rating) ∧
    (let s : State := { injecting with inc := { Inc.initial with pDem := -1, nDem := 1 } }
     s.inc.pDem ≤ 0 ∧ (setDemand s).inc.demand = 0) := by decide +kernel

theorem witness_AllocationWithinBudget :
    PeerEntry.absent.state = .absent ∧
    (let e : PeerEntry := { PeerEntry.absent with state := .held }
     e.state ≠ .absent ∧ e.slow = none) ∧
    (gateway.state ≠ .absent ∧ gateway.slow = some gatewaySlow ∧ gatewaySlow.kind = 1) ∧
    (let e := PeerEntry.take 0 (blockOf 7 0) (PeerEntry.take 0 (blockOf 7 0) PeerEntry.absent)
     e.state ≠ .absent ∧ e.slow = some (blockOf 7 0).slow ∧ (blockOf 7 0).slow.kind = 0 ∧ e.foreign = true ∧
     e.fast.restorer ≠ 3 ∧ e.fast.restorer ≠ 4 ∧ ({ e with foreign := false } : PeerEntry).foreign = false ∧
     ({ e.fast with restorer := 3 } : Fast).restorer = 3) := by decide +kernel

/-- One class is served in full, the next shares what remains, the last gets nothing; the own term stands in the own
slot. -/
theorem witness_walk :
    let ts : List Term := [⟨false, 0, 100⟩, ⟨true, 1, 150⟩, ⟨false, 1, 50⟩, ⟨false, 2, 60⟩]
    ts.map (grantOf ts 200) = [100, 75, 25, 0] ∧ ts.map (grantOf ts 360) = [100, 150, 50, 60] ∧
    ts.find? Term.own = some ⟨true, 1, 150⟩ ∧ ownGrant ts 200 = 75 ∧ grantRatio ts 200 = 16384 ∧
    grantRatio [⟨true, 1, 0⟩] 0 = 32768 ∧ ([] : List Term).find? Term.own = none ∧
    ownSlot injecting = some 3 ∧ (slotTerm injecting 3).map Term.own = some true ∧ slotTerm injecting 4 = none := by
  decide +kernel

theorem witness_RatingClamp :
    (2001 : Int) > Config.defaults.uMax ∧ (-2001 : Int) < -(Config.defaults.uMax : Int) ∧
    (-(Config.defaults.uMax : Int) ≤ -2000 ∧ (2000 : Int) ≤ Config.defaults.uMax) := by decide

theorem witness_EventEnergy :
    let s := fun (e : Int) => { plain with inc := { Inc.initial with energy := e } }
    0 < (s 0).settings.fNom ∧ Int.fdiv (-64000 * 2147483648 - 1) (1280 * 50) < -2147483648 ∧
    2147483647 < Int.fdiv (64000 * 2147483648) (1280 * 50) ∧ (s 0).inc.energy = 0 ∧ (s (-1)).inc.energy < 0 ∧
    joules (s (-1)) = -1 := by decide +kernel

theorem witness_HandledSet :
    (injecting.rsq.state = .inject ∧ injecting.rsq.onsetArrival = false ∧ injecting.inc.ramp = 32768) ∧
    ((releasing 0).rsq.state = .release ∧ (releasing 0).rsq.onsetArrival = false ∧
      0 < (releasing 0).settings.rampLength ∧ (releasing 0).inc.rampCount ≤ (releasing 0).settings.rampLength) ∧
    eventActive ready = false ∧
    ({ injecting with rsq := { injecting.rsq with onsetArrival := true } } : State).rsq.onsetArrival = true := by decide

theorem witness_PortWithinLimits :
    injecting.spt.outstanding.isSome = true ∧ plain.spt.outstanding = none ∧ OutputsAgree injecting ∧
    FractionsBounded injecting ∧
    ∃ u, exec (.sampleSetArrival 5 goodRaw {}) injecting = .next u ∧ u.inc.port ≠ Phases.same 0 := by
  refine ⟨rfl, rfl, ⟨by decide, by decide, by decide, by decide, by decide⟩,
    ⟨by decide, by decide, by decide, by decide, by decide⟩, _, rfl, by decide +kernel⟩

/-- A LIVE entry of a restorer that does or does not report a sag on phase A. -/
def sagging (sag : Bool) : PeerEntry :=
  { PeerEntry.absent with
    state := .live, slow := some (blockOf 7 0).slow, fast := { Fast.cleared with sagNow := ⟨sag, false, false⟩ } }

/-- INJECT with its window open, a peer that counts, and a table of one entry. -/
def classifying (sag : Bool) (count : Nat) (lo : Nat) : State :=
  { injecting with
    evc := { injecting.evc with
      windowCount := count
      table := [{ classMatch := .any, phaseSet := 1, lo := lo, hi := 600, method := .inphase, override := none
                  capture := true, limit := 0, endFlag := true }] }
    slc := { injecting.slc with peers := injecting.slc.peers.set 7 (sagging sag) } }

/-- An entry with this method, limit and capture. -/
def entryWith (m : TableMethod) (limit : Nat) (capture : Bool) : TableEntry :=
  { classMatch := .any, phaseSet := 7, lo := 0, hi := 1500, method := m, override := some 1, capture := capture
    limit := limit, endFlag := true }

theorem witness_WindowDecides :
    (classifying true 0 500).evc.window = true ∧ (ownSlot (classifying true 0 500)).isSome = true ∧
    (classifying true 0 500).settings.k ≤ coincidences (classifying true 0 500) ∧
    (coincidences (classifying false 0 500) < (classifying false 0 500).settings.k ∧
      (classifying false 0 500).evc.windowCount = 0) ∧
    (coincidences (classifying false 1 500) < (classifying false 1 500).settings.k ∧
      (classifying false 1 500).evc.windowCount = 1) ∧
    (searchTable .grid (classifying true 0 500)).isSome = true ∧ searchTable .grid (classifying true 0 501) = none := by
  decide +kernel

/-- What counts as a coincidence, and the tests of an entry. -/
theorem witness_coincidences :
    coincidences (classifying true 0 500) = 1 ∧ coincidences (classifying false 0 500) = 0 ∧
    witness ⟨true, false, false⟩ (sagging true) = true ∧ witness ⟨false, true, false⟩ (sagging true) = false ∧
    witness ⟨true, false, false⟩ { sagging false with sagPrev := ⟨true, false, false⟩ } = true ∧
    witness ⟨true, false, false⟩ { sagging true with state := .held } = false ∧
    witness ⟨true, false, false⟩ { sagging true with slow := some gatewaySlow } = false ∧
    (let e : TableEntry := { entryWith .inphase 0 true with classMatch := .grid, phaseSet := 2, lo := 400, hi := 600 }
     entryMatches e .grid 2 400 = true ∧ entryMatches e .grid 2 600 = true ∧ entryMatches e .grid 2 601 = false ∧
     entryMatches e .grid 1 500 = false ∧ entryMatches e .localOnly 2 500 = false ∧
     entryMatches e .grid 0 500 = false) ∧
    injecting.evc.window = true ∧ ready.evc.window = false := by decide +kernel

theorem witness_ActionOfAnEntry :
    injecting.rsq.state = .inject ∧ fresh injecting = false ∧
    fresh { injecting with pru := { injecting.pru with ref := { injecting.pru.ref with age := 25, valid := true } } }
      = true ∧
    (let s : State := { injecting with evc := { injecting.evc with cycles := 7 } }
     (entryWith .inphase 7 true).limit ≤ s.evc.cycles.toNat ∧ s.evc.cycles.toNat < (entryWith .inphase 8 true).limit ∧
     (applyAction false false (some (entryWith .inphase 7 true)) s).rsq.endCause = .duration ∧
     (applyAction false false (some (entryWith .withdraw 0 true)) s).rsq.endCause = .withdrawn) ∧
    (let s : State := { injecting with cst := { injecting.cst with filling := some (endedCapture 300 none true) } }
     (applyAction false false (some (entryWith .presag 0 false)) s).cst.filling
       = some (endedCapture 300 none true)) ∧
    (let s : State := { injecting with cst := { injecting.cst with
       filling := some (endedCapture 300 none false), queued := some queuedOpening } }
     let u := applyAction false false (some (entryWith .presag 0 false)) s
     u.cst.filling = none ∧ u.cst.queued = some queuedOpening) := by decide +kernel

theorem witness_CaptureOpensAtOnset :
    State.reset.cst.layout = none ∧
    (let s : State := { ready with cst := { ready.cst with full := 8 } }
     s.cst.layout = some .code1 ∧ s.cst.filling = none ∧ Layout.slots .code1 ≤ s.cst.full) ∧
    ((filling (endedCapture 300 none false)).cst.filling = some (endedCapture 300 none false) ∧
      (endedCapture 300 none false).test = false ∧ (endedCapture 300 none false).tail = none) ∧
    ((endedCapture 300 (some 3) false).tail.isSome = true ∧
      (filling (endedCapture 300 (some 3) false)).cst.queued = none) ∧
    (ready.cst.filling = none ∧ ready.cst.full < Layout.slots .code1) ∧
    ((endedCapture 300 none true).test = true) ∧ ready.cst.history.length = 128 := by decide +kernel

theorem witness_CaptureOpensAtOnset_safety : MemoryCanonical ready ∧ RingAgrees ready := by
  exact ⟨rfl, by decide +kernel, by decide, by decide, by decide, by decide⟩

theorem witness_CaptureCompletionFilesRecord :
    (let s := filling (endedCapture 1024 (some 0) false)
     s.cst.layout = some .code1 ∧ s.cst.filling = some (endedCapture 1024 (some 0) false) ∧ captureDue s = true ∧
     s.cst.queued = none ∧ Memory.wf s.cst.mem = true ∧ (after (exec .captureCompletion s)).cst.full = 1) ∧
    (let s := filling (endedCapture 1024 none true)
     captureDue s = true) ∧
    (let s : State := { filling (endedCapture 1024 (some 0) false) with
       cst := { (filling (endedCapture 1024 (some 0) false)).cst with queued := some queuedOpening, full := 7 } }
     captureDue s = true ∧ s.cst.queued = some queuedOpening ∧ queuedOpening.making.ended = none ∧
     Layout.slots .code1 ≤ s.cst.full + 1) ∧
    captureDue (filling (endedCapture 1023 (some 127) false)) = false := by decide +kernel

theorem witness_queue_room :
    let s : State := { filling (endedCapture 1024 (some 0) false) with
      cst := { (filling (endedCapture 1024 (some 0) false)).cst with queued := some queuedOpening } }
    s.cst.full + 1 < Layout.slots .code1 ∧ captureDue s = true := by decide

theorem witness_BlockStartSortsBlock :
    ready.now ≤ 12000 ∧ ready.pins.resetHeld = false ∧ lineActive 12000 ready.slc = false ∧
    ready.slc.timing = some (gridIn 5) ∧ (gridIn 5).taken = false ∧ (gridIn 5).nominal ≤ 12000 ∧
    12000 ≤ (gridIn 5).nominal + 12000 ∧ (gridIn 5).nominal + 12000 < 12001 ∧ plain.slc.timing = none ∧
    plain.pins.resetHeld = false ∧ State.reset.pins.resetHeld = true ∧
    lineActive 25599 { ready.slc with rx := some { start := 0, inSlot := none } } = true ∧
    lineActive 25600 { ready.slc with rx := some { start := 0, inSlot := none } } = false := by decide

/-- A station that receives a block, aligned in slot 7. -/
def receiving (inSlot : Option Nat) (s : State) : State :=
  { s with slc := { s.slc with rx := some { start := 100, inSlot := inSlot } } }

theorem witness_LineErrorsAndClaims :
    (receiving none ready).slc.rx = some { start := 100, inSlot := none } ∧
    blockValid (List.replicate 31 0xA5#8) = false ∧
    blockMalformed { blockOf 7 0 with slot := 12 } = true ∧
    blockValid (encodeBlock { blockOf 7 0 with slot := 12 }) = true ∧
    blockValid (encodeBlock (blockOf 3 0)) = true ∧ blockMalformed (decodeBlock (encodeBlock (blockOf 3 0))) = false ∧
    ownSlot ready = some (decodeBlock (encodeBlock (blockOf 3 0))).slot.toNat ∧
    (after (exec (.blockReceived 9 false (encodeBlock (blockOf 3 0))) (receiving none ready))).slc.collisionMark = true ∧
    ({ ready.slc with tx := some { start := 0, bytes := [], quiesce := true } } : Slc).tx
      = some { start := 0, bytes := [], quiesce := true } ∧
    ready.slc.rx = none ∧ ready.slc.tx = none := by decide +kernel

theorem witness_AlignedBlockTaken :
    let s := receiving (some 7) ready
    let bytes := encodeBlock (blockOf 7 4)
    s.slc.rx = some { start := 100, inSlot := some 7 } ∧ s.slc.timing = some (gridIn 5) ∧ blockValid bytes = true ∧
    blockMalformed (decodeBlock bytes) = false ∧ (decodeBlock bytes).slot.toNat = 7 ∧ ownSlot s ≠ some 7 ∧
    s.slc.membership ≠ .listen ∧ s.slc.peers.length = 12 ∧ (peerEntry s 7).candidate ≠ some (blockOf 7 4).slow ∧
    (let again := receiving (some 7) (after (exec (.blockReceived 200 false bytes) s))
     (peerEntry again 7).candidate = some (blockOf 7 4).slow) := by decide +kernel

theorem witness_HeardBlockTimesStation :
    let bytes := encodeBlock (blockOf 7 4)
    let listening : State := receiving none { ready with slc := { Slc.initial with membership := .listen } }
    let untimed : State := { listening with slc := { listening.slc with membership := .down } }
    blockValid bytes = true ∧ blockMalformed (decodeBlock bytes) = false ∧ ownSlot listening ≠ some 7 ∧
    (listening.slc.membership = .listen ∧ listening.slc.heardFirst = false ∧ listening.slc.rx.isSome = true) ∧
    (untimed.slc.membership ≠ .listen ∧ untimed.slc.timing = none ∧ untimed.slc.rx.isSome = true) ∧
    ((receiving (some 7) ready).slc.timing.isSome = true ∧ onLine (receiving none ready) = true) ∧
    (let off : State := receiving none { ready with slc := { ready.slc with membership := .down } }
     off.slc.timing.isSome = true ∧ onLine off = false) ∧
    (after (exec (.blockReceived 25700 false bytes) listening)).slc.frameNumber = 5 := by decide +kernel

/-- The first block of LISTEN and a misaligned one are taken into the entry of their slot. -/
theorem witness_every_block_taken :
    let bytes := encodeBlock (blockOf 7 4)
    let listening : State := receiving none { ready with slc := { Slc.initial with membership := .listen } }
    (peerEntry (after (exec (.blockReceived 25700 false bytes) listening)) 7).state = .live ∧
    (peerEntry (after (exec (.blockReceived 25700 false bytes) (receiving none ready))) 7).heard = true ∧
    (after (exec (.blockReceived 25700 false bytes) (receiving none ready))).slc.misalignCount = 1 ∧
    listening.slc.peers.length = 12 := by decide +kernel

theorem witness_StartAloneDeclaresSlotZero :
    let listening : State :=
      { ready with
        slc := { Slc.initial with membership := .listen, listenEnd := some 960000 }
        rsq := { Rsq.initial with state := .charge } }
    let zero : State := { listening with cfl := { listening.cfl with strap := 0 } }
    (listening.slc.membership = .listen ∧ listening.slc.listenEnd = some 960000 ∧ ownSlot listening = some 3 ∧
      listening.rsq.state = .charge ∧ listening.settings.linkReady ≤ listening.spt.lastGood.link ∧
      listening.pru.lock = .locked) ∧
    ownSlot zero = some 0 ∧ (after (exec .startAlone zero)).slc.tx.isSome = true ∧
    (after (exec .startAlone listening)).rsq.state = .ready ∧ ready.slc.membership ≠ .listen := by decide +kernel

/-- A reception that began at the declared instant or within the window is slot 0's, one before or after is stray; CHARGE
stays with the link low. -/
theorem witness_StartAlone_sorts_reception :
    let at' := fun (start link : Nat) =>
      ({ ready with
        spt := { ready.spt with lastGood := { ready.spt.lastGood with link := link } }
        slc := { Slc.initial with
          membership := .listen, listenEnd := some 960000, rx := some { start := start, inSlot := none } }
        rsq := { Rsq.initial with state := .charge } } : State)
    let slotOf := fun (start : Nat) => (after (exec .startAlone (at' start 6500))).slc.rx.map Reception.inSlot
    slotOf 959999 = some none ∧ slotOf 960000 = some (some 0) ∧ slotOf 972000 = some (some 0) ∧
    slotOf 972001 = some none ∧ (after (exec .startAlone (at' 960000 5999))).rsq.state = .charge := by decide +kernel

theorem witness_SlotStartOpensSlot :
    plain.slc.timing = none ∧
    (ready.slc.timing = some (gridIn 5) ∧ (gridIn 5).slot < 11 ∧ ownSlot ready ≠ some 6) ∧
    (let s : State := { ready with slc := { ready.slc with timing := some (gridIn 2) } }
     s.slc.membership = .member ∧ ownSlot s = some ((gridIn 2).slot + 1) ∧
     (after (exec (.slotStart {}) s)).slc.tx.isSome = true) := by decide +kernel

/-- The last slot of a frame, with a collision mark and a run. -/
def lastSlot (run : Nat) (mark : Bool) (m : Membership) : State :=
  { ready with slc := { ready.slc with
      timing := some (gridIn 11), membership := m, heardFirst := true, collisionRun := run, collisionMark := mark } }

theorem witness_FrameEndWork :
    (gridIn 11).slot = 11 ∧ (lastSlot 2 true .member).slc.timing = some (gridIn 11) ∧
    onLine (lastSlot 2 true .member) = true ∧ onLine (lastSlot 0 false .listen) = false ∧
    (lastSlot 0 false .listen).slc.heardFirst = true ∧ ownSlot (lastSlot 0 false .listen) ≠ some 4 ∧
    (after (exec (.slotStart {}) (lastSlot 2 true .member))).slc.membership = .mute ∧
    (after (exec (.slotStart {}) (lastSlot 1 true .member))).slc.membership = .member ∧
    (after (exec (.slotStart {}) (lastSlot 0 false .listen))).slc.membership = .member ∧
    (lastSlot 0 false .member).slc.collisionMark = false := by decide +kernel

/-- The misalignment run at a frame end: no candidate, a first one, one that does not win, and one that does. -/
theorem witness_misalignment :
    let at' := fun (run : Nat) (c : Option Candidate) =>
      ({ lastSlot 0 false .member with slc :=
        { (lastSlot 0 false .member).slc with frameNumber := 1, misalignRun := run, candidate := c } } : State)
    let u := fun (run : Nat) (c : Option Candidate) => (after (exec (.slotStart {}) (at' run c))).slc
    let low : Candidate := { start := 20000, slot := 2, frameNumber := 1 }
    let high : Candidate := { start := 20000, slot := 4, frameNumber := 1 }
    (u 1 none).misalignRun = 0 ∧ (u 0 (some low)).misalignRun = 1 ∧ (u 0 (some low)).timing.map Timing.slot = some 0 ∧
    (u 1 (some high)).misalignRun = 2 ∧ (u 1 (some high)).timing.map Timing.slot = some 0 ∧
    (u 1 (some low)).misalignRun = 0 ∧ (u 1 (some low)).timing.map Timing.gridStart = some 20000 ∧
    (u 1 (some { high with frameNumber := 2 })).timing.map Timing.gridStart = some 20000 ∧
    (u 1 (some low)).candidate = none := by decide +kernel

theorem witness_aging :
    let e : PeerEntry := { gateway with heard := true }
    e.heard = true ∧ gateway.heard = false ∧ gateway.state = .live ∧
    (let h : PeerEntry := { gateway with state := .held, missed := 3 }
     h.state = .held ∧ h.missed < 4 ∧ h.age.missed = 4 ∧ h.age.age = PeerEntry.absent) ∧
    PeerEntry.absent.state = .absent := by decide

theorem witness_BlockDecodesAsAssembled : (blockOf 7 4).slow.kind = (blockOf 7 4).kind := by decide

/-- Every request stands in a state in which it was asked, and not in one in which it was not. -/
theorem witness_requests_stand :
    standing (asked 1 4 ready) = some (7, requestOf 1 4) ∧
    stands 7 9 1 (some 4) (asked 1 4 ready) = true ∧
    stands 7 9 2 (some (0#16 ++ 1567#16)) (asked 2 1567 ready) = true ∧
    stands 7 9 3 (some (11#16 ++ 27#16)) (asked 3 (11#16 ++ 27#16) ready) = true ∧
    stands 7 9 4 (some 3) (asked 4 3 ready) = true ∧ stands 7 9 5 none (asked 5 0 ready) = true ∧
    stands 7 9 6 none (asked 6 0 ready) = true ∧ stands 7 9 7 none (asked 7 0 ready) = true ∧
    stands 7 9 8 none (asked 8 0 ready) = true ∧ 8 ≤ (8#4).toNat ∧ stands 7 9 15 none (asked 15 0 ready) = true ∧
    stands 7 9 1 (some 4) ready = false ∧ stands 7 9 2 (some (0#16 ++ 0#16)) ready = false ∧
    stands 7 9 3 (some (0#16 ++ 0#16)) ready = false ∧ stands 7 9 4 (some 3) ready = false ∧
    stands 7 9 5 none ready = false ∧ stands 7 9 6 none ready = false ∧ stands 7 9 7 none ready = false ∧
    stands 7 9 8 none ready = false := by decide +kernel

theorem witness_StandingRequest :
    standing (asked 1 4 ready) = some (7, requestOf 1 4) ∧ Follow.initial.baselinePending = true ∧
    (let x : Follow := { Follow.initial with baselinePending := false, baseline := some (requestOf 1 4) }
     x.baselinePending = false ∧ x.baseline = some (requestOf 1 4) ∧ x.baseline ≠ some (requestOf 2 4)) ∧
    executable (asked 1 4 ready) 7 = some (requestOf 1 4) ∧ executable (asked 1 4 ready) 6 = none ∧
    standing { asked 1 4 ready with rqh := { (asked 1 4 ready).rqh with execOpen := false } } = none := by
  decide +kernel

theorem witness_read_replies :
    11 ≤ (11#32).toNat ∧ Cst.initial.layout = none ∧ ready.cst.layout = some .code1 ∧ Layout.slots .code1 ≤ 8 ∧
    7 < Layout.slots .code1 ∧ 15 + 3 * 128 * Layout.cycles .code1 < 3088 ∧ 3087 ≤ 15 + 3 * 128 * Layout.cycles .code1 ∧
    slotState ready.cst .code1 0 = .free ∧
    slotState (filling (endedCapture 300 none false)).cst .code1 0 ≠ .free ∧
    (after (exec (.readItem 7 9 4) (asked 1 4 ready))).rqh.reply.data = 50000 ∧
    (after (exec (.readItem 7 9 11) (asked 1 11 ready))).rqh.reply.status = .badArg ∧
    (after (exec (.readPeer 7 9 7 4) (asked 3 (7#16 ++ 4#16) ready))).rqh.reply.data = 1 := by decide +kernel

/-- The fields of an entry: of a restorer, of a slot never heard, and the numbers past them. -/
theorem witness_peer_fields :
    let s : State := { ready with slc := { ready.slc with peers := ready.slc.peers.set 7 (sagging true) } }
    (peerEntry s 7).slow = some (blockOf 7 0).slow ∧ peerReply s 7 6 = (.ok, 80) ∧ peerReply s 7 13 = (.ok, 1) ∧
    peerReply s 7 27 = (.ok, 0) ∧ peerReply s 7 28 = (.badArg, 0) ∧ peerReply s 12 0 = (.badArg, 0) ∧
    (peerEntry s 11).slow = none ∧ peerReply s 11 6 = (.ok, 0) ∧ (peerEntry s 7).missed < 4294967296 := by
  decide +kernel

/-- Six FULL slots from slot 5. -/
def sixFull : State := asked 4 3 { ready with cst := { ready.cst with oldest := 5, fill := 3, full := 6 } }

theorem witness_FreeRecordsFreesOldest :
    stands 7 9 4 (some 3) sixFull = true ∧ (3#32).toNat ≤ sixFull.cst.full ∧
    sixFull.cst.full < (7#32).toNat ∧ sixFull.cst.layout = some .code1 ∧
    (after (exec (.freeRecords 7 9 3) sixFull)).cst.oldest = 0 ∧
    stands 7 9 4 (some 0) (asked 4 0 sixFull) = true ∧ stands 7 9 4 (some 7) (asked 4 7 sixFull) = true ∧
    stands 7 9 4 (some 6) (asked 4 6 sixFull) = true ∧ (6#32).toNat ≤ sixFull.cst.full := by decide +kernel

theorem witness_FreeRecords_ring : RingAgrees sixFull :=
  ⟨by decide +kernel, by decide, by decide, by decide, by decide⟩

theorem witness_ClearLockoutByState :
    let locked : State := asked 5 0 { ready with rsq := { Rsq.initial with state := .lockout } }
    let hot : State := { locked with pins := { locked.pins with overtemp := true } }
    (stands 7 9 5 none locked = true ∧ locked.rsq.state = .lockout ∧ faultActive locked = false) ∧
    (stands 7 9 5 none hot = true ∧ hot.rsq.state = .lockout ∧ faultActive hot = true) ∧
    (asked 5 0 ready).rsq.state ≠ .lockout := by decide +kernel

theorem witness_TestCaptureByState :
    (stands 7 9 6 none (asked 6 0 ready) = true ∧ ready.cst.layout = some .code1 ∧ eventActive ready = false ∧
      ready.cst.filling = none ∧ ready.cst.full < Layout.slots .code1 ∧ Memory.wf ready.cst.mem = true ∧
      ready.cst.history.length = 128) ∧
    (stands 7 9 6 none (asked 6 0 injecting) = true ∧ eventActive injecting = true) ∧
    (stands 7 9 6 none (asked 6 0 (filling (endedCapture 300 none false))) = true ∧
      (filling (endedCapture 300 none false)).cst.filling.isSome = true) ∧
    (let s : State := asked 6 0 { ready with cst := { ready.cst with full := 8 } }
     stands 7 9 6 none s = true ∧ Layout.slots .code1 ≤ s.cst.full) ∧
    (let s : State := asked 6 0 { ready with cst := Cst.initial }
     stands 7 9 6 none s = true ∧ s.cst.layout = none) := by decide +kernel

theorem witness_SoftResetSetsQuiesce :
    let again : State := asked 7 0 { ready with rsq := { ready.rsq with quiesce := true } }
    (stands 7 9 7 none (asked 7 0 ready) = true ∧ (asked 7 0 ready).rsq.quiesce = false) ∧
    (stands 7 9 7 none again = true ∧ again.rsq.quiesce = true) := by decide +kernel

/-! Witnesses of the clauses on a soft reset within an arrival, on the own tests and on what is shown. -/

/-- A pending soft reset that waits for a post tail; the next arrival completes the tail and, by `sagRaw`, is an onset. -/
def resetWaits : State :=
  { beforeOnset with
    cfl := { beforeOnset.cfl with settings :=
      { Config.defaults with sagThreshold := 980, recoverThreshold := 1000, vNom := 2350 } }
    rsq := { beforeOnset.rsq with quiesce := true, sentSince := true, eventCounter := 9 }
    cst := { beforeOnset.cst with filling := some (endedCapture 1023 (some 127) false) } }

theorem witness_reset_within_arrival :
    let took := fun (order : List ArrivalPart) =>
      after (exec (.sampleSetArrival 5 sagRaw { order := order, softReset := some 5 }) resetWaits)
    let s1 := takeSet 10 (some (saturatedSet sagRaw)) (settleDue (resetWaits.moveTo 5))
    resetWaits.spt.outstanding = some { index := 10, deadline := 78125 } ∧ parityGood sagRaw = true ∧
    softResetReady s1 = false ∧ softResetReady (completeDue s1) = true ∧
    ((took [.completion]).rsq.state = .off ∧ (took [.completion]).rsq.eventCounter = 9 ∧
      (took [.completion]).cst.full = 1 ∧ (took [.completion]).cfl.strap = 5 ∧
      (took [.completion]).cfl.loading = true) ∧
    ((took []).rsq.state = .inject ∧ (took []).rsq.eventCounter = 10 ∧ (took []).cfl.loading = false) ∧
    ready.rsq.quiesce = false ∧ ({} : ArrivalTaking).softReset = none := by decide +kernel

theorem witness_overcurrent_run :
    let s : State := { overTwice [] 1 6000 with rsq := { (overTwice [] 1 6000).rsq with overRun := 0 } }
    eventActive s = true ∧ s.rsq.onsetArrival = false ∧ s.rsq.overRun = 0 ∧
    s.settings.iTrip < (s.spt.lastGood.i.get .a).natAbs ∧ (overcurrentTest .afterNo s).rsq.overRun = 1 ∧
    (let set : SampleSet := { injecting.spt.lastGood with i := ⟨1200, -1200, 0⟩ }
     let c : State := { injecting with
       spt := { injecting.spt with lastGood := set }
       rsq := { injecting.rsq with overRun := 1 } }
     (overcurrentTest .afterNo c).rsq.overRun = 0) ∧
    eventActive ready = false := by decide +kernel

/-- The close waits at an arrival: they begin, count, close at a sign change or at 64, and the last one ends the event. -/
theorem witness_close_waits :
    let two : State := { releasing 63 with rsq := { (releasing 63).rsq with bypassOpen := ⟨true, true, false⟩ } }
    (takeSet 1 none two).rsq.waits = ⟨some 63, some 0, none⟩ ∧ two.rsq.rampDone = true ∧
    ((closeWaits .afterNo false ⟨1, 1, 1⟩ two).rsq.bypassOpen = ⟨false, true, false⟩) ∧
    ((closeWaits .afterNo true ⟨1, 1, 1⟩ two).rsq.waits = ⟨some 64, none, none⟩) ∧
    ((closeWaits .afterNo true ⟨-1, 1, 1⟩ two).rsq.bypassOpen = ⟨false, true, false⟩) ∧
    ((closeWaits .afterNo false ⟨0, 1, 1⟩ (releasing 0)).rsq.state = .ready) ∧
    ((closeWaits .afterNo false ⟨1, 1, 1⟩ (releasing 62)).rsq.waits = ⟨some 63, none, none⟩) ∧
    ready.rsq.state ≠ .release := by decide +kernel

theorem witness_raw_values :
    let set := saturatedSet goodRaw
    let pre : State := { injecting with inc := { injecting.inc with method := .presag } }
    (pre.inc.method = .presag ∧ rawValues pre 0 set = Phases.same (-1000)) ∧
    (injecting.inc.method = .inphase ∧ fresh injecting = false ∧ rawValues injecting 0 set = Phases.same 9000) ∧
    linkLimitOf Config.defaults 12000 = 5400 := by decide +kernel

theorem witness_decision_and_default :
    injecting.evc.window = true ∧ 1 ≤ (classifying false 1 500).evc.windowCount ∧
    ({ injecting.sdu.record with rMin := ⟨500, 400, 1000⟩ } : OnsetRecord).sinceMask.get .a = true ∧
    depth { injecting.sdu.record with rMin := ⟨500, 400, 1000⟩ } = 500 ∧ fresh injecting = false ∧
    (applyAction false false none { injecting with inc := { injecting.inc with method := .presag } }).evc.stale = true ∧
    (applyAction false false none injecting).inc.method = .inphase ∧
    fresh { injecting with pru := { injecting.pru with ref := { injecting.pru.ref with age := 25, valid := true } } }
      = true := by decide +kernel

/-- An onset behind an ended capture takes that event's class fields; a refused one files its own record at a post tail
of 0. -/
theorem witness_onset_at_the_store :
    let e : EndFields := endFields injecting
    let c := endedCapture 300 (some 3) false
    let ended : Capture := { c with making := { c.making with ended := some e } }
    let s : State := { atOnset with cst := { atOnset.cst with filling := some ended } }
    let poor : State := { atOnset with
      esa := Esa.initial, cfl := { atOnset.cfl with settings := { Config.defaults with postTail := 0 } } }
    plain.slc.timing = none ∧ ready.slc.timing = some (gridIn 5) ∧ framePosition { ready with now := 480000 } = 479 ∧
    (onsetHere s = true ∧ 0 < s.esa.budget ∧ s.settings.k ≠ 0 ∧ (detect .afterNo s).cst.queued.isSome = true ∧
      (detect .afterNo s).cst.filling.map (fun c => c.making.classed) = some (some (classFields s))) ∧
    (onsetHere poor = true ∧ poor.esa.budget = 0 ∧ (detect .afterNo poor).cst.full = 1) := by decide +kernel

/-- A queued opening whose event has ended opens in its post tail; with a post tail of 0 it is filed at once. -/
theorem witness_queued_event_ended :
    let m : Making := { queuedOpening.making with ended := some (endFields injecting) }
    let q : Queued := { queuedOpening with making := m }
    let at' := fun (tail : Nat) => ({ filling (endedCapture 1024 (some 0) false) with
      cst := { (filling (endedCapture 1024 (some 0) false)).cst with queued := some q }
      cfl := { plain.cfl with settings := { Config.defaults with postTail := tail } } } : State)
    let u := fun (tail : Nat) => (after (exec .captureCompletion (at' tail))).cst
    captureDue (at' 1) = true ∧ (at' 1).cst.full + 1 < Layout.slots .code1 ∧ (at' 1).cst.queued = some q ∧
    q.making.ended ≠ none ∧ MemoryCanonical (at' 1) ∧
    (u 1).filling.map Capture.tail = some (some 0) ∧ (u 1).full = 1 ∧ (u 0).filling = none ∧ (u 0).full = 2 ∧
    (u 0).fill = 2 := by
  refine ⟨by decide, by decide, rfl, by decide, rfl, ?_⟩
  decide +kernel

theorem witness_candidates :
    let low : Candidate := { start := 0, slot := 2, frameNumber := 1 }
    let high : Candidate := { start := 9, slot := 4, frameNumber := 1 }
    candidateAfter (some high) low = low ∧ candidateAfter (some low) high = low ∧ candidateAfter (some low) low = low ∧
    candidateAfter (some low) { high with frameNumber := 2 } = { high with frameNumber := 2 } := by decide

/-- A frame end at which LISTEN becomes MEMBER and a MEMBER in slot 0 sends; the own entry and the frame number. -/
theorem witness_frame_end_parts :
    let joining : State := { lastSlot 0 false .listen with rsq := { Rsq.initial with state := .charge } }
    let zero : State := { lastSlot 0 false .member with cfl := { plain.cfl with strap := 0 } }
    let heard : PeerEntry := { gateway with heard := true, frameNumber := 7 }
    let led : State := { lastSlot 0 false .member with slc :=
      { (lastSlot 0 false .member).slc with peers := Slc.initial.peers.set 7 heard } }
    let u := after (exec (.slotStart {}) led)
    joining.slc.timing = some (gridIn 11) ∧ (gridIn 11).slot = 11 ∧ joining.slc.peers.length = 12 ∧
    ownSlot joining = some 3 ∧
    (frameEndSlc 40000 joining).slc.membership ≠ joining.slc.membership ∧
    (after (exec (.slotStart {}) joining)).rsq.state = .ready ∧
    (after (exec (.slotStart {}) zero)).slc.tx.isSome = true ∧
    u.slc.frameNumber = 8 ∧ (peerEntry u 3).state = .live ∧ (peerEntry u 3).frameNumber = 8 ∧
    (peerEntry led 7).age.state = .live := by decide +kernel

/-- What is kept of a slot at a frame end, by the state of its entry; each code's execution within a frame end. -/
theorem witness_following :
    let f := requestOf 1 4
    let with' := fun (e : PeerEntry) =>
      ({ ready with slc := { ready.slc with peers := ready.slc.peers.set 7 e } } : State)
    let kept := fun (e : PeerEntry) => ((follow (with' e)).rqh.slots.getD 7 Follow.initial).previous
    (peerEntry (with' gateway) 7).state = .live ∧
    kept { gateway with fast := { Fast.cleared with request := f } } = some f ∧
    kept { gateway with state := .held, fast := { Fast.cleared with request := f } } = none ∧
    ((follow { (asked 1 4 ready) with slc := ready.slc }).rqh.slots.getD 7 Follow.initial).previous = none ∧
    ownSlot ready = some 3 ∧ ready.rqh.slots.length = 12 ∧
    ([1#4, 2, 3, 4, 5, 6, 7, 8, 15].map (fun c => (standing (asked c 0 ready)).map (fun x => requestCode x.2))) =
      [1#4, 2, 3, 4, 5, 6, 7, 8, 15].map some ∧
    (let asks : PeerEntry := { gateway with
       heard := true, fast := { Fast.cleared with request := requestOf 7 0 } }
     let s : State := { asked 7 0 ready with
       slc := { ready.slc with timing := some (gridIn 11), peers := ready.slc.peers.set 7 asks } }
     (after (exec (.slotStart { order := [.execute] }) s)).rsq.quiesce = true) := by decide +kernel

/-! Witnesses of the clauses on an arrival as a sequence, on a cycle end during an event, and beside them. -/

/-- The outstanding strobe is the last of its cycle. -/
def atCycleEnd (s : State) : State :=
  { s with spt := { s.spt with outstanding := some { index := 127, deadline := 78125 } } }

/-- A good set at a cycle end in an event, a wait left over that the next arrival closes first, and an order that names two
parts. -/
theorem witness_arrival_sequence :
    (let s := atCycleEnd injecting
     let u := after (exec (.sampleSetArrival 5 goodRaw {}) s)
     s.spt.outstanding = some { index := 127, deadline := 78125 } ∧ max s.now 5 < 78125 ∧ parityGood goodRaw = true ∧
     u.rsq.cycleCount = 1 ∧ u.evc.cycles = 1 ∧ u.inc.port ≠ Phases.same 0) ∧
    (settleDue (releasing 64)).rsq.state = .ready ∧ settleDue (releasing 63) = releasing 63 ∧
    (let k : ArrivalTaking := { order := [.completion, .inject] }
     k.order.Nodup ∧ k.apart.contains .holdoverLimit = false ∧ (arrivalOrder k).take 2 = k.order ∧
     (arrivalOrder k).length = 9) := by decide +kernel

/-- A missing set that is the fourth in a row, and one that is not; by a passed deadline and by a set of bad parity. -/
theorem witness_missing_sequence :
    let fourth : State := { injecting with spt := { injecting.spt with missRun := 3 } }
    injecting.spt.outstanding = some { index := 10, deadline := 78125 } ∧ max injecting.now 5 < 78125 ∧
    parityGood badRaw = false ∧ injecting.spt.missRun ≠ 3 ∧ fourth.spt.missRun = 3 ∧
    (after (exec (.arrivalDeadline {}) injecting)).rsq.state = .inject ∧
    (after (exec (.sampleSetArrival 5 badRaw {}) fourth)).rsq.endCause = .sense := by decide +kernel

/-- The fault taken in an event, in CHARGE and in OFF. -/
theorem witness_fault_taken :
    eventActive injecting = true ∧ (faultTaken .afterNo .sense injecting).rsq.lastEndCause = .sense ∧
    (let s : State := { ready with rsq := { ready.rsq with state := .charge } }
     (faultTaken .afterNo .sense s).rsq.state = .lockout) ∧
    plain.rsq.state = .off ∧ faultTaken .afterNo .sense plain = plain := by decide +kernel

/-- An event in INJECT or RELEASE, a limit in force and a count of cycle ends. -/
def limited (s : State) (limit : Nat) (cycles : Half) : State :=
  { s with evc := { s.evc with window := false, limit := some limit, cycles := cycles } }

/-- A cycle end in an event: the limit not reached, reached, reached with the expiry left apart, reached in RELEASE. -/
theorem witness_cycle_end_in_an_event :
    let at' := limited injecting 8
    eventActive (at' 7) = true ∧ (at' 7).rsq.state = .inject ∧ (at' 7).evc.limit = some 8 ∧
    (cycleEnd false false (at' 6)).rsq.state = .inject ∧ (cycleEnd false false (at' 6)).evc.cycles = 7 ∧
    (cycleEnd false false (at' 7)).rsq.endCause = .duration ∧ (cycleEnd false false (at' 7)).rsq.cycleCount = 1 ∧
    (cycleEnd false true (at' 7)).rsq.state = .inject ∧ (cycleEnd false true (at' 7)).evc.expiryDue = true ∧
    (let r := limited (releasing 5) 8 7
     eventActive r = true ∧ (cycleEnd false false r).rsq.endCause = .recovered ∧
     (cycleEnd false true r).evc.expiryDue = false) ∧
    (cycleEnd false false (at' 65535)).evc.cycles = 65535 := by decide +kernel

/-- The actions that leave an injecting restorer, in either order and with the expiry apart; an action in RELEASE. -/
theorem witness_action_by_state :
    let s : State := { injecting with evc := { injecting.evc with cycles := 7 } }
    let act := fun (b b' : Bool) (m : TableMethod) => applyAction b b' (some (entryWith m 7 true)) s
    let r : State := { releasing 5 with evc := { (releasing 5).evc with cycles := 7 } }
    let late := applyAction false false (some (entryWith .withdraw 7 true)) r
    s.rsq.state = .inject ∧ (entryWith .withdraw 7 true).limit ≠ 0 ∧
    (entryWith .withdraw 7 true).limit ≤ s.evc.cycles.toNat ∧
    (act false false .withdraw).rsq.endCause = .withdrawn ∧ (act true false .withdraw).rsq.endCause = .duration ∧
    (act true true .withdraw).rsq.endCause = .withdrawn ∧ (act true true .withdraw).evc.expiryDue = true ∧
    (act false true .withdraw).evc.expiryDue = false ∧ (act false true .inphase).evc.expiryDue = true ∧
    (act false true .inphase).rsq = s.rsq ∧
    r.rsq.state = .release ∧ late.rsq = r.rsq ∧ late.evc.withdrawn = true ∧ late.evc.expiryDue = false := by
  decide +kernel

/-- An onset with K = 0: an action whose capture is yes, one whose capture is no, and that one behind a test capture. -/
theorem witness_onset_with_no_window :
    let at' := fun (capture : Bool) (f : Option Capture) => ({ atOnset with
      cfl := { atOnset.cfl with settings := { Config.defaults with k := 0 } }
      rsq := { atOnset.rsq with eventCounter := 4 }
      evc := { atOnset.evc with table := [entryWith .inphase 0 capture] }
      cst := { atOnset.cst with filling := f } } : State)
    let u := fun (capture : Bool) (f : Option Capture) => detect .afterNo (at' capture f)
    onsetHere (at' false none) = true ∧ 0 < (at' false none).esa.budget ∧ (at' false none).settings.k = 0 ∧
    (searchTable .grid (u false none)).map (fun x => x.2.capture) = some false ∧
    (u true none).cst.filling.isSome = true ∧ (u false none).cst.filling = none ∧
    (u false (some (endedCapture 300 none true))).cst.filling = none ∧
    (u true (some (endedCapture 300 (some 2) false))).cst.queued.isSome = true ∧
    (u false (some (endedCapture 300 (some 2) false))).cst.queued = none ∧
    (u false (some (endedCapture 300 (some 2) false))).cst.filling.isSome = true := by decide +kernel

/-- The words of a record: the summary's, and the three of a set. -/
theorem witness_record_words :
    let x : CapturedSet := ⟨⟨1, -2, 3⟩, ⟨-4, 5, -6⟩⟩
    let c : Cst := { Cst.initial with
      mem := Memory.writeBytes (Memory.writeBytes [] (setAddr .code1 2 130) (setBytes x)) (summaryAddr 2 + 4)
        [1, 2, 3, 4] }
    recordWord c .code1 2 1 = 0x01020304 ∧
    (∀ n : Fin 12, Memory.read c.mem (setAddr .code1 2 130 + n) = (setBytes x).getD n 0) ∧
    recordWord c .code1 2 (16 + 3 * 130) = 0x0001FFFE ∧ recordWord c .code1 2 (16 + 3 * 130 + 1) = 0x0003FFFC ∧
    recordWord c .code1 2 (16 + 3 * 130 + 2) = 0x0005FFFA := by decide +kernel

/-- An executed request sets the slot's last tag and uses the frame end's one execution. -/
theorem witness_request_used :
    let u := after (exec (.softReset 7 9) (asked 7 0 ready))
    stands 7 9 7 none (asked 7 0 ready) = true ∧ (followOf u 7).lastTag = some 9 ∧ u.rqh.execOpen = false := by
  decide +kernel

/-! Witnesses of the clauses on helpers, and of arrivals and blocks at their boundaries. -/

/-- Each clamp below, at, within, at the other end of and above its range; the two nominal frequencies; the cross-field
clamps met and not met. -/
theorem witness_clamps :
    let d := Config.defaults
    let u := fun (n : Nat) => clampRanges { d with vNom := n, k := n, fNom := n }
    [0, 54, 55, 100].map (fun n => (u n).fNom) = [50, 50, 60, 60] ∧ [0, 11, 12].map (fun n => (u n).k) = [0, 11, 11] ∧
    [999, 1000, 2300, 3000, 3001].map (fun n => (u n).vNom) = [1000, 1000, 2300, 3000, 3000] ∧
    (clampCross { d with recoverThreshold := d.sagThreshold }).recoverThreshold = d.sagThreshold + 10 ∧
    (clampCross { d with vFloor := d.vKnee - 99 }).vFloor = d.vKnee - 100 ∧
    (clampCross { d with linkMin := d.linkReady - 99 }).linkMin = d.linkReady - 100 ∧ clampCross d = d := by decide

/-- The own slot within 0..11 and beyond; the half interval of a run; the saturating count; the parity of a set; the event
number below and at its end. -/
theorem witness_helpers :
    ownSlot { plain with cfl := { plain.cfl with strap := 11 } } = some 11 ∧
    ownSlot { plain with cfl := { plain.cfl with strap := 12 } } = none ∧
    ownSlot { plain with cfl := { plain.cfl with strapsRead := false } } = none ∧
    ({ start := 0, fEst := 50000, dc := 0 } : Run).half = 78125 ∧ (0 : Nat) < 50000 ∧
    satInc (65534 : Half) = 65535 ∧ satInc (65535 : Half) = 65535 ∧
    parityGood goodRaw = true ∧ parityGood { goodRaw with link := ⟨6500, true⟩ } = false ∧
    (0xFFFFFFFE#32 ≠ 0xFFFFFFFF#32 ∧ nextEvent 0xFFFFFFFE#32 = 0xFFFFFFFF#32) ∧ nextEvent 0xFFFFFFFF#32 = 1#32 := by
  decide +kernel

/-- The own slot's entry stands through the coming into force of new settings. -/
theorem witness_own_entry :
    ownSlot loadingState = some 5 ∧
    peerEntry (after (exec (.memoryNoAnswer 9) loadingState)) 5 = peerEntry loadingState 5 := by decide +kernel

/-- An arrival outside INJECT that is no onset and no re-sag goes into the open record alone. -/
theorem witness_quiet_arrival :
    onsetHere (releasing 5) = false ∧ resagHere (releasing 5) = false ∧ (releasing 5).rsq.state ≠ .inject ∧
    (releasing 5).sdu.record.isOpen = true ∧ (detect .afterNo (releasing 5)).rsq = (releasing 5).rsq ∧
    onsetHere ready = false ∧ resagHere ready = false ∧ ready.rsq.state ≠ .inject ∧ ready.sdu.record.isOpen = false ∧
    detect .afterNo ready = ready := by decide +kernel

/-- The opening behind a completion is made with the history of 128 arrivals. -/
theorem witness_queued_history :
    let s := filling (endedCapture 1024 (some 0) false)
    s.cst.history.length = 128 ∧ MemoryCanonical s := ⟨by decide +kernel, rfl⟩

/-- The first block of LISTEN at a station without timing, aligned, and misaligned. -/
theorem witness_first_of_listen :
    let bytes := encodeBlock (blockOf 7 4)
    let at' := fun (timing : Option Timing) (inSlot : Option Nat) =>
      (receiving inSlot { ready with slc := { Slc.initial with membership := .listen, timing := timing } })
    let u := fun (timing : Option Timing) (inSlot : Option Nat) =>
      (after (exec (.blockReceived 25700 false bytes) (at' timing inSlot))).slc
    (at' none none).slc.heardFirst = false ∧ (u none none).misalignCount = 0 ∧
    (u (some (gridIn 7)) (some 7)).misalignCount = 0 ∧ (u (some (gridIn 7)) none).misalignCount = 1 ∧
    (u (some (gridIn 7)) none).candidate = none ∧ (u (some (gridIn 7)) none).heardFirst = true := by decide +kernel

/-- What the checks of a block turn away: its length, its first byte, its CRC, its kind and its slot. -/
theorem witness_block_checks :
    let x := encodeBlock (blockOf 7 4)
    blockValid x = true ∧ blockValid (x.take 31) = false ∧ blockValid (x.set 0 0x5A#8) = false ∧
    blockValid (x.set 9 0xFF#8) = false ∧ blockMalformed (blockOf 11 4) = false ∧
    blockMalformed (blockOf 12 4) = true ∧ blockMalformed { blockOf 7 4 with kind := 1 } = false ∧
    blockMalformed { blockOf 7 4 with kind := 2 } = true := by decide +kernel

end Sys2Proof.Tests
end

section
/-! SUPPORT. What an arrival keeps beside the frames: the soft-reset mark, the histories of SDU and CST, and PRU's run,
next index and candidate buffer. Each lemma names those of the six that the operation's frame does not give. -/

namespace Sys2Proof.Machine

variable (s : State)

@[simp] theorem exitInject_keeps (c : EndCause) : (exitInject c s).rsq.quiesce = s.rsq.quiesce := by
  unfold exitInject; split <;> rfl

@[simp] theorem withdraw_keeps (m : TableMethod) : (withdraw m s).rsq.quiesce = s.rsq.quiesce := by
  cases m <;> simp [withdraw]

@[simp] theorem compareLimit_keeps (b : Bool) : (compareLimit b s).rsq.quiesce = s.rsq.quiesce := by
  unfold compareLimit; (repeat' split) <;> simp

@[simp] theorem putLimit_keeps (n : Nat) (b : Bool) : (putLimit n b s).rsq.quiesce = s.rsq.quiesce := by
  unfold putLimit; split <;> simp

@[simp] theorem applyAction_keeps (b b' : Bool) (e : Option TableEntry) :
    (applyAction b b' e s).rsq.quiesce = s.rsq.quiesce ∧ (applyAction b b' e s).cst.history = s.cst.history := by
  unfold applyAction releaseCapture; dsimp only; (repeat' split) <;> simp

@[simp] theorem openWindow_keeps :
    (openWindow s).rsq.quiesce = s.rsq.quiesce ∧ (openWindow s).cst.history = s.cst.history := by
  unfold openWindow; split <;> simp [classify]

@[simp] theorem captureOnset_keeps : (captureOnset s).cst.history = s.cst.history := by
  unfold captureOnset; dsimp only; (repeat' split) <;> simp

@[simp] theorem handEnd_keeps (k : CompletionTaking) :
    (handEnd k s).sdu.history = s.sdu.history ∧ (handEnd k s).cst.history = s.cst.history ∧
    (handEnd k s).pru.run = s.pru.run ∧ (handEnd k s).pru.index = s.pru.index ∧
    (handEnd k s).pru.candidate = s.pru.candidate := by
  simp [handEnd, quietBlocks, captureEnded]

@[simp] theorem endEvent_keeps (k : CompletionTaking) (c : EndCause) (t : RestorerState) :
    (endEvent k c t s).rsq.quiesce = s.rsq.quiesce ∧ (endEvent k c t s).sdu.history = s.sdu.history ∧
    (endEvent k c t s).pru.run = s.pru.run ∧ (endEvent k c t s).pru.index = s.pru.index ∧
    (endEvent k c t s).pru.candidate = s.pru.candidate := by
  simp [endEvent, closeEvent]

@[simp] theorem faultTaken_keeps (k : CompletionTaking) (c : EndCause) :
    (faultTaken k c s).rsq.quiesce = s.rsq.quiesce ∧ (faultTaken k c s).sdu.history = s.sdu.history ∧
    (faultTaken k c s).cst.history = s.cst.history ∧ (faultTaken k c s).pru.run = s.pru.run ∧
    (faultTaken k c s).pru.index = s.pru.index ∧ (faultTaken k c s).pru.candidate = s.pru.candidate := by
  unfold faultTaken; (repeat' split) <;> simp

@[simp] theorem takeOnset_keeps (k : CompletionTaking) :
    (takeOnset k s).rsq.quiesce = s.rsq.quiesce ∧ (takeOnset k s).sdu.history = s.sdu.history ∧
    (takeOnset k s).cst.history = s.cst.history ∧ (takeOnset k s).pru.run = s.pru.run ∧
    (takeOnset k s).pru.index = s.pru.index ∧ (takeOnset k s).pru.candidate = s.pru.candidate := by
  unfold takeOnset; dsimp only
  split <;> simp [enterInject, refuseOnset, numberOnset, openOnsetRecord, takeClassFields]

@[simp] theorem takeResag_keeps : (takeResag s).rsq.quiesce = s.rsq.quiesce := by
  unfold takeResag; split <;> simp [returnToInject]

@[simp] theorem accumulate_keeps : (accumulate s).sdu.history = s.sdu.history := by
  unfold accumulate; split <;> rfl

@[simp] theorem recoveryTest_keeps :
    (recoveryTest s).rsq.quiesce = s.rsq.quiesce ∧ (recoveryTest s).sdu.history = s.sdu.history := by
  unfold recoveryTest; (repeat' split) <;> simp

@[simp] theorem detect_keeps (k : CompletionTaking) :
    (detect k s).rsq.quiesce = s.rsq.quiesce ∧ (detect k s).sdu.history = s.sdu.history ∧
    (detect k s).cst.history = s.cst.history ∧ (detect k s).pru.run = s.pru.run ∧
    (detect k s).pru.index = s.pru.index ∧ (detect k s).pru.candidate = s.pru.candidate := by
  unfold detect; (repeat' split) <;> simp

@[simp] theorem serviceTest_keeps : (serviceTest s).rsq.quiesce = s.rsq.quiesce := by
  unfold serviceTest readyTest; (repeat' split) <;> rfl

@[simp] theorem linkRunTest_keeps : (linkRunTest s).rsq.quiesce = s.rsq.quiesce := by
  unfold linkRunTest; dsimp only; (repeat' split) <;> simp

@[simp] theorem injectSet_keeps (n : Nat) (x : SampleSet) : (injectSet n x s).rsq.quiesce = s.rsq.quiesce := by
  unfold injectSet rampStep; dsimp only; (repeat' split) <;> rfl

@[simp] theorem overcurrentTest_keeps (k : CompletionTaking) :
    (overcurrentTest k s).rsq.quiesce = s.rsq.quiesce ∧ (overcurrentTest k s).sdu.history = s.sdu.history ∧
    (overcurrentTest k s).cst.history = s.cst.history ∧ (overcurrentTest k s).pru.run = s.pru.run ∧
    (overcurrentTest k s).pru.index = s.pru.index ∧ (overcurrentTest k s).pru.candidate = s.pru.candidate := by
  unfold overcurrentTest; (repeat' split) <;> simp [overcurrentEnd]

@[simp] theorem closeBypasses_keeps (k : CompletionTaking) (m : Phases Bool) :
    (closeBypasses k m s).rsq.quiesce = s.rsq.quiesce ∧ (closeBypasses k m s).sdu.history = s.sdu.history ∧
    (closeBypasses k m s).cst.history = s.cst.history ∧ (closeBypasses k m s).pru.run = s.pru.run ∧
    (closeBypasses k m s).pru.index = s.pru.index ∧ (closeBypasses k m s).pru.candidate = s.pru.candidate := by
  rw [closeBypasses_eq]; split <;> simp

@[simp] theorem closeWaits_keeps (k : CompletionTaking) (b : Bool) (x : Phases Int) :
    (closeWaits k b x s).rsq.quiesce = s.rsq.quiesce ∧ (closeWaits k b x s).sdu.history = s.sdu.history ∧
    (closeWaits k b x s).cst.history = s.cst.history ∧ (closeWaits k b x s).pru.run = s.pru.run ∧
    (closeWaits k b x s).pru.index = s.pru.index ∧ (closeWaits k b x s).pru.candidate = s.pru.candidate := by
  unfold closeWaits; split <;> simp

@[simp] theorem closeTimedOut_keeps (k : CompletionTaking) (m : Phases Bool) :
    (closeTimedOut k m s).rsq.quiesce = s.rsq.quiesce ∧ (closeTimedOut k m s).sdu.history = s.sdu.history ∧
    (closeTimedOut k m s).cst.history = s.cst.history ∧ (closeTimedOut k m s).pru.run = s.pru.run ∧
    (closeTimedOut k m s).pru.index = s.pru.index ∧ (closeTimedOut k m s).pru.candidate = s.pru.candidate := by
  unfold closeTimedOut; split <;> simp

@[simp] theorem lockHanded_keeps : (lockHanded s).rsq.quiesce = s.rsq.quiesce := by
  unfold lockHanded readyTest; (repeat' split) <;> rfl

@[simp] theorem handLock_keeps (l : LockState) : (handLock l s).rsq.quiesce = s.rsq.quiesce := by
  unfold handLock; split <;> simp

@[simp] theorem countCycle_keeps (b : Bool) : (countCycle b s).rsq.quiesce = s.rsq.quiesce := by
  unfold countCycle; split <;> simp

/-- A lock transition moves the lock, its two counts and the reference-valid flag (R12, R13). -/
theorem lockTransition_frame (apart good : Bool) (limit : Nat) (p : Pru) :
    lockTransition apart good limit p =
      { p with
        lock := (lockTransition apart good limit p).lock
        goodCount := (lockTransition apart good limit p).goodCount
        holdoverCount := (lockTransition apart good limit p).holdoverCount
        ref := { p.ref with valid := (lockTransition apart good limit p).ref.valid } } := by
  unfold lockTransition acquireEntry; (repeat' split) <;> rfl

/-- The stored cycle's refresh or aging is a change of it alone (R16, R17). -/
theorem ageOrRefresh_frame (q : Phases Nat) (p : Pru) :
    ageOrRefresh q p = { p with ref := (ageOrRefresh q p).ref } := by
  unfold ageOrRefresh; split <;> rfl

/-- PRU's evaluation of a cycle: the correction, and what the lock transition moves (R11, R12). -/
theorem evaluateCycle_frame (apart : Bool) :
    evaluateCycle apart s =
      { s.pru with
        fEst := (evaluateCycle apart s).fEst, dc := (evaluateCycle apart s).dc
        lock := (evaluateCycle apart s).lock, goodCount := (evaluateCycle apart s).goodCount
        holdoverCount := (evaluateCycle apart s).holdoverCount
        ref := { s.pru.ref with valid := (evaluateCycle apart s).ref.valid } } := by
  unfold evaluateCycle
  dsimp only
  rw [lockTransition_frame]

/-- PRU's own work at a cycle end leaves its run, its next index, its candidate buffer and its notes. -/
theorem cycleEndPru_frame (apart : Bool) :
    cycleEndPru apart s =
      { s.pru with
        lock := (cycleEndPru apart s).lock, goodCount := (cycleEndPru apart s).goodCount
        holdoverCount := (cycleEndPru apart s).holdoverCount, fEst := (cycleEndPru apart s).fEst
        dc := (cycleEndPru apart s).dc, ref := (cycleEndPru apart s).ref } := by
  unfold cycleEndPru
  split
  · rfl
  · rw [ageOrRefresh_frame, evaluateCycle_frame]

@[simp] theorem cycleEnd_keeps (b b' : Bool) :
    (cycleEnd b b' s).rsq.quiesce = s.rsq.quiesce ∧ (cycleEnd b b' s).pru.run = s.pru.run ∧
    (cycleEnd b b' s).pru.index = s.pru.index ∧ (cycleEnd b b' s).pru.candidate = s.pru.candidate := by
  have hp : (cycleEnd b b' s).pru = cycleEndPru b s := by simp [cycleEnd]
  rw [hp, cycleEndPru_frame]
  simp [cycleEnd, countCycleEnd]

@[simp] theorem holdoverLimitReached_keeps :
    (holdoverLimitReached s).rsq.quiesce = s.rsq.quiesce ∧ (holdoverLimitReached s).pru.run = s.pru.run ∧
    (holdoverLimitReached s).pru.index = s.pru.index ∧
    (holdoverLimitReached s).pru.candidate = s.pru.candidate := by
  unfold holdoverLimitReached; split <;> simp [acquireEntry]

@[simp] theorem expireDuration_keeps : (expireDuration s).rsq.quiesce = s.rsq.quiesce := by
  unfold expireDuration; split <;> simp

/-- Every part of an arrival keeps the six. -/
@[simp] theorem arrivalPart_keeps (k : ArrivalTaking) (a : Arrival) (p : ArrivalPart) :
    (arrivalPart k a p s).rsq.quiesce = s.rsq.quiesce ∧ (arrivalPart k a p s).sdu.history = s.sdu.history ∧
    (arrivalPart k a p s).cst.history = s.cst.history ∧ (arrivalPart k a p s).pru.run = s.pru.run ∧
    (arrivalPart k a p s).pru.index = s.pru.index ∧ (arrivalPart k a p s).pru.candidate = s.pru.candidate := by
  cases p <;> simp only [arrivalPart]
  case sense => split <;> simp
  case cycleEnd => split <;> simp
  case completion => split <;> simp
  all_goals simp

/-- So do the timed steps that were due. -/
@[simp] theorem settleDue_keeps :
    (settleDue s).rsq.quiesce = s.rsq.quiesce ∧ (settleDue s).sdu.history = s.sdu.history ∧
    (settleDue s).cst.history = s.cst.history ∧ (settleDue s).pru.run = s.pru.run ∧
    (settleDue s).pru.index = s.pru.index ∧ (settleDue s).pru.candidate = s.pru.candidate := by
  simp [settleDue]

@[simp] theorem beginWaits_keeps : (beginWaits s).rsq.quiesce = s.rsq.quiesce := by
  unfold beginWaits; split <;> rfl

@[simp] theorem captureSet_history (x : SampleSet) :
    (captureSet x s).cst.history = s.cst.history.drop 1 ++ [⟨x.v, x.i⟩] := by
  unfold captureSet; dsimp only; split <;> rfl

/-- The taking of a set enters it in the three histories, and is SPT's judgement (R3, R4, R16, R20, R137). -/
theorem takeSet_enters (n : Nat) (g : Option SampleSet) :
    (takeSet n g s).spt = judge g s.spt ∧ (takeSet n g s).rsq.quiesce = s.rsq.quiesce ∧
    (takeSet n g s).sdu.history = ((g.getD s.spt.lastGood).v :: s.sdu.history).take 128 ∧
    (takeSet n g s).cst.history =
      s.cst.history.drop 1 ++ [⟨(g.getD s.spt.lastGood).v, (g.getD s.spt.lastGood).i⟩] ∧
    (takeSet n g s).pru.candidate = s.pru.candidate.set n (g.getD s.spt.lastGood).v ∧
    (takeSet n g s).pru.run = s.pru.run ∧ (takeSet n g s).pru.index = s.pru.index := by
  have hj : (judge g s.spt).lastGood = g.getD s.spt.lastGood := by cases g <;> rfl
  simp [takeSet, hj, noteSet, measureSet]

/-! An arrival that no soft reset abandons. -/

/-- Neither the operand nor a pending request asks for a soft reset within the arrival (R132; log 26). -/
def NoResetWithin (k : ArrivalTaking) (s : State) : Prop := k.softReset = none ∨ s.rsq.quiesce = false

theorem NoResetWithin.of_quiesce {k : ArrivalTaking} {s u : State} (h : NoResetWithin k s)
    (hu : u.rsq.quiesce = s.rsq.quiesce) : NoResetWithin k u := by
  unfold NoResetWithin at *
  rwa [hu]

theorem NoResetWithin.resetWithin_eq {k : ArrivalTaking} {s : State} (h : NoResetWithin k s) :
    resetWithin k s = none := by
  rcases h with h | h <;> simp [resetWithin, softResetReady, h]

/-- Every part is then taken, in the order. -/
theorem takeParts_of_noResetWithin {k : ArrivalTaking} (a : Arrival) (ps : List ArrivalPart) {s : State}
    (h : NoResetWithin k s) : takeParts k a ps s = ps.foldl (fun u p => arrivalPart k a p u) s := by
  induction ps generalizing s with
  | nil => simp [takeParts, h.resetWithin_eq]
  | cons p ps ih =>
    simp only [takeParts, h.resetWithin_eq, List.foldl_cons]
    exact ih (h.of_quiesce (by simp))

/-- An arrival with what it carries read before the timed steps still due, which leave SPT as it is. -/
theorem arrive_eq (k : ArrivalTaking) (n : Nat) (g : Option SampleSet) :
    arrive k n g s = takeParts k
      { index := n, before := s.spt.lastGood.i, sense := g.isNone && s.spt.missRun == 3 } (arrivalOrder k)
      (takeSet n g (settleDue s)) := by
  have hs : (settleDue s).spt = s.spt := by simp
  unfold arrive
  dsimp only
  rw [hs]

/-- What such an arrival leaves: SPT's judgement, the set in every history, and the blocks that it does not reach. -/
theorem arrive_enters {k : ArrivalTaking} {s : State} (h : NoResetWithin k s) (n : Nat) (g : Option SampleSet) :
    (arrive k n g s).spt = judge g s.spt ∧
    (arrive k n g s).sdu.history = ((g.getD s.spt.lastGood).v :: s.sdu.history).take 128 ∧
    (arrive k n g s).cst.history =
      s.cst.history.drop 1 ++ [⟨(g.getD s.spt.lastGood).v, (g.getD s.spt.lastGood).i⟩] ∧
    (arrive k n g s).pru.candidate = s.pru.candidate.set n (g.getD s.spt.lastGood).v ∧
    (arrive k n g s).pru.run = s.pru.run ∧ (arrive k n g s).pru.index = s.pru.index ∧
    (arrive k n g s).esa = s.esa ∧ (arrive k n g s).slc = s.slc ∧ (arrive k n g s).rqh = s.rqh ∧
    (arrive k n g s).cfl = s.cfl := by
  rw [arrive_eq, takeParts_of_noResetWithin _ _ (h.of_quiesce (by simp [takeSet_enters]))]
  generalize ({ index := n, before := s.spt.lastGood.i, sense := g.isNone && s.spt.missRun == 3 } : Arrival) = a
  generalize arrivalOrder k = ps
  induction ps using List.reverseRecOn with
  | nil => simp [takeSet_enters]
  | append_singleton ps p ih => simpa using ih

end Sys2Proof.Machine
end

section
/-! SUPPORT. The order of an arrival's parts, and the commands of the sample path as functions of the state. -/

namespace Sys2Proof.Machine

/-! The order (log 4). -/

/-- A list without its repetitions holds each of its members once. -/
theorem count_eraseDups {α : Type} [DecidableEq α] (a : α) (l : List α) :
    l.eraseDups.count a = if a ∈ l then 1 else 0 := by
  induction hn : l.length using Nat.strong_induction_on generalizing l with
  | _ n ih =>
    cases l with
    | nil => simp
    | cons x xs =>
      have hlt : (xs.filter (fun b => !b == x)).length < n := by
        have := List.length_filter_le (fun b => !b == x) xs
        simp only [List.length_cons] at hn
        omega
      rw [List.eraseDups_cons, List.count_cons, ih _ hlt _ rfl]
      by_cases hx : x = a
      · simp [hx]
      · have hx' : ¬ a = x := fun h => hx h.symm
        simp [hx, hx']

/-- A list without repetitions stands as it is. -/
theorem eraseDups_of_nodup {α : Type} [DecidableEq α] {l : List α} (h : l.Nodup) : l.eraseDups = l := by
  induction l with
  | nil => rfl
  | cons x xs ih =>
    obtain ⟨hx, hxs⟩ := List.nodup_cons.mp h
    have hf : xs.filter (fun b => !b == x) = xs := by
      rw [List.filter_eq_self]
      intro b hb
      have : b ≠ x := fun e => hx (e ▸ hb)
      simp [this]
    rw [List.eraseDups_cons, hf, ih hxs]

/-- Each part of a whole is taken as often as the whole names it, whatever is named first. -/
theorem count_takingOrder {α : Type} [DecidableEq α] (named all : List α) {a : α} (h : all.count a = 1) :
    (takingOrder named all).count a = 1 := by
  unfold takingOrder
  rw [List.count_append, count_eraseDups]
  by_cases hn : a ∈ named
  · have : (all.filter (fun p => !named.contains p)).count a = 0 := by
      rw [List.count_eq_zero]
      simp [hn]
    rw [if_pos hn, this]
  · rw [List.count_filter (by simp [hn])]
    simp [hn, h]

/-- Every part of an arrival is taken once. -/
theorem count_arrivalOrder (k : ArrivalTaking) (p : ArrivalPart) : (arrivalOrder k).count p = 1 := by
  have once : ∀ q, (takingOrder k.order arrivalParts).count q = 1 :=
    fun q => count_takingOrder _ _ (by cases q <;> rfl)
  unfold arrivalOrder
  dsimp only
  split
  · by_cases hp : p = .cycleEnd
    · subst hp
      rw [List.count_append, List.count_eq_zero.mpr (by simp)]
      rfl
    · rw [List.count_append, List.count_filter (by simp [hp]), once]
      simp [List.count_eq_zero.mpr, hp]
  · exact once p

/-- The parts that the operand names come first, in its order. -/
theorem take_arrivalOrder {k : ArrivalTaking} (hn : k.order.Nodup)
    (ha : k.apart.contains .holdoverLimit = false) : (arrivalOrder k).take k.order.length = k.order := by
  unfold arrivalOrder takingOrder
  simp only [ha, Bool.false_eq_true, if_false, eraseDups_of_nodup hn]
  exact List.take_left

/-! The commands. -/

variable {s : State} {o : Outstanding}

theorem noResetWithin_default (s : State) : NoResetWithin {} s := .inl rfl

/-- The deadline of an outstanding strobe gives a missing set at that instant (R3). -/
theorem deadlinePasses_of_some (k : ArrivalTaking) (h : s.spt.outstanding = some o) :
    deadlinePasses k s = arrive k o.index none (s.moveTo o.deadline) := by
  simp [deadlinePasses, h]

theorem deadlinePasses_of_none (k : ArrivalTaking) (h : s.spt.outstanding = none) : deadlinePasses k s = s := by
  simp [deadlinePasses, h]

/-- A set in time is judged by its parity (R1, R3). -/
theorem setArrives_in_time {t : Nat} (set : RawSet) (k : ArrivalTaking) (h : s.spt.outstanding = some o)
    (ht : max s.now t < o.deadline) :
    setArrives t set k s =
      arrive k o.index (if parityGood set then some (saturatedSet set) else none) (s.moveTo t) := by
  simp [setArrives, h, Nat.not_le.mpr ht]

/-- A late set is discarded, and finds the deadline passed (R3; log 33). -/
theorem setArrives_late {t : Nat} (set : RawSet) (k : ArrivalTaking) (h : s.spt.outstanding = some o)
    (ht : o.deadline ≤ max s.now t) : setArrives t set k s = (deadlinePasses k s).moveTo t := by
  simp [setArrives, h, ht]

/-- Without an outstanding strobe a set is discarded (R3). -/
theorem setArrives_of_none (t : Nat) (set : RawSet) (k : ArrivalTaking) (h : s.spt.outstanding = none) :
    setArrives t set k s = s.moveTo t := by
  simp [setArrives, h]

/-- Once the deadline has been taken no outcome is owed. -/
theorem deadlinePasses_owes_nothing {k : ArrivalTaking} (h : NoResetWithin k s) :
    (deadlinePasses k s).spt.outstanding = none := by
  cases ho : s.spt.outstanding with
  | none => rw [deadlinePasses_of_none k ho, ho]
  | some o =>
    rw [deadlinePasses_of_some k ho]
    obtain ⟨hspt, -⟩ := arrive_enters (s := s.moveTo o.deadline) (h.of_quiesce (by simp)) o.index none
    rw [hspt]
    rfl

theorem exec_captureCompletion (s : State) : exec .captureCompletion s = .next (completeDue s) := rfl

/-- The settling of what is due is the four timed steps, each as its own command takes it (log 5). -/
theorem settleDue_eq_commands (s : State) :
    settleDue s = completeDue (expireDuration (closeTimedOut .afterNo (phaseMask .c) (closeTimedOut .afterNo
      (phaseMask .b) (closeTimedOut .afterNo (phaseMask .a) (holdoverLimitReached s))))) := by
  rw [closeTimedOut_twice, closeTimedOut_twice]
  rfl

end Sys2Proof.Machine
end

section
/-! The statements on what arrives: a good set, a missing one, and a saturated one (R1 to R6). -/

namespace Sys2Proof.Machine

/-- A good set in time: what it leaves (R3, R4, R16, R20, R137). -/
theorem good_set_enters {t : Nat} {set : RawSet} {k : ArrivalTaking} {s : State} {o : Outstanding}
    (hk : NoResetWithin k s) (ho : s.spt.outstanding = some o) (ht : max s.now t < o.deadline)
    (hp : parityGood set = true) :
    ∃ u, exec (.sampleSetArrival t set k) s = .next u ∧
      u.spt = { lastGood := saturatedSet set, missRun := 0, faultCount := s.spt.faultCount, outstanding := none } ∧
      u.sdu.history = ((saturatedSet set).v :: s.sdu.history).take 128 ∧
      u.cst.history = s.cst.history.drop 1 ++ [⟨(saturatedSet set).v, (saturatedSet set).i⟩] ∧
      u.pru.candidate = s.pru.candidate.set o.index (saturatedSet set).v ∧
      u.pru.run = s.pru.run ∧ u.pru.index = s.pru.index ∧
      u.pins = s.pins ∧ u.now = max s.now t ∧ u.esa = s.esa ∧ u.slc = s.slc ∧ u.rqh = s.rqh ∧ u.cfl = s.cfl := by
  obtain ⟨hspt, hsdu, hcst, hcand, hrun, hindex, hesa, hslc, hrqh, hcfl⟩ :=
    arrive_enters (s := s.moveTo t) (hk.of_quiesce (by simp)) o.index (some (saturatedSet set))
  refine ⟨_, exec_eq_effect _ s, ?_⟩
  simp only [effect, setArrives_in_time set k ho ht, hp, if_true]
  simp [hspt, hsdu, hcst, hcand, hrun, hindex, hesa, hslc, hrqh, hcfl, judge]

/-- Settles O13: the set's entry from what an arrival keeps, the sequence from the default order of an arrival. -/
theorem goodSetTaken : Obligations.GoodSetTaken := by
  unfold Obligations.GoodSetTaken
  refine ⟨fun t set k s o hk ho ht hp => good_set_enters hk ho ht hp, ?sequence, ?due, ?set, ?parts,
    fun k => ⟨count_arrivalOrder k, take_arrivalOrder⟩, fun t s => rfl⟩
  case sequence =>
    intro t set s o ho ht hp
    rw [exec_eq_effect]
    simp [effect, setArrives_in_time set {} ho ht, hp, arrive_default]
  case due =>
    intro s s1 s2 s3 s4 s5 h1 h2 h3 h4 h5
    rw [exec_next_iff] at h1 h2 h3 h4 h5
    rw [exec_captureCompletion, settleDue_eq_commands, ← h5, ← h4, ← h3, ← h2, ← h1]
    rfl
  case set =>
    intro k good s
    cases good <;> rfl
  case parts =>
    intro k a s
    refine ⟨fun h => ?_, fun h => ?_, rfl, fun h => ?_, fun h => ?_, rfl, rfl, rfl, rfl, rfl, fun h => ?_, fun h => ?_⟩
    · simp [arrivalPart, h]
    · simp [arrivalPart, h]
    · simp [arrivalPart, h]
    · simp [arrivalPart, h]
    · simp [arrivalPart, h, exec_captureCompletion]
    · simp [arrivalPart, h]

/-- A count that saturates goes up by one, to the greatest value of its width. -/
theorem toNat_satInc {w : Nat} (n : BitVec w) : (satInc n).toNat = min (2 ^ w - 1) (n.toNat + 1) := by
  have hn := n.isLt
  unfold satInc
  split
  · rename_i h
    subst h
    rw [BitVec.toNat_allOnes]
    omega
  · rename_i h
    have hne : n.toNat ≠ 2 ^ w - 1 := fun e => h (BitVec.eq_of_toNat_eq (by rw [e, BitVec.toNat_allOnes]))
    have h1 : 1 < 2 ^ w := by omega
    rw [BitVec.toNat_add, BitVec.ofNat_eq_ofNat, BitVec.toNat_ofNat, Nat.mod_eq_of_lt h1, Nat.mod_eq_of_lt (by omega)]
    omega

/-- What a missing set leaves: the held set in the histories, both counts up, no outcome owed (R3, R4). -/
def HeldSet (s u : State) : Prop :=
  u.spt = { lastGood := s.spt.lastGood, missRun := satInc s.spt.missRun, faultCount := satInc s.spt.faultCount
            outstanding := none } ∧
  u.sdu.history = (s.spt.lastGood.v :: s.sdu.history).take 128 ∧
  u.cst.history = s.cst.history.drop 1 ++ [⟨s.spt.lastGood.v, s.spt.lastGood.i⟩] ∧
  u.pins = s.pins ∧ u.esa = s.esa ∧ u.slc = s.slc ∧ u.rqh = s.rqh ∧ u.cfl = s.cfl

theorem arrive_missing_held {k : ArrivalTaking} {s : State} (hk : NoResetWithin k s) (t n : Nat) :
    HeldSet s (arrive k n none (s.moveTo t)) := by
  obtain ⟨hspt, hsdu, hcst, -, -, -, hesa, hslc, hrqh, hcfl⟩ :=
    arrive_enters (s := s.moveTo t) (hk.of_quiesce (by simp)) n none
  refine ⟨by rw [hspt]; simp [judge], by rw [hsdu]; simp, by rw [hcst]; simp, by simp, ?_⟩
  simp [hesa, hslc, hrqh, hcfl]

/-- Settles O14: a set of bad parity and a passed deadline are one arrival, of a missing set. -/
theorem missingSetHeld : Obligations.MissingSetHeld := by
  unfold Obligations.MissingSetHeld
  refine ⟨?parity, ?deadline, ?none, ?default, ?order, fun w n => toNat_satInc n⟩
  case parity =>
    intro t set k s o hk ho ht hp
    refine ⟨_, exec_eq_effect _ s, ?_⟩
    simp only [effect, setArrives_in_time set k ho ht, hp, Bool.false_eq_true, if_false]
    exact ⟨arrive_missing_held hk t o.index, by simp⟩
  case deadline =>
    intro k s o hk ho
    refine ⟨_, exec_eq_effect _ s, ?_⟩
    simp only [effect, deadlinePasses_of_some k ho]
    refine ⟨arrive_missing_held hk o.deadline o.index, by simp, ?_⟩
    intro t set ht
    rw [exec_eq_effect]
    simp only [effect, setArrives_late set k ho ht, deadlinePasses_of_some k ho]
    rfl
  case none =>
    intro s ho
    refine ⟨fun t set k => ?_, fun k => ?_⟩
    · rw [exec_eq_effect]
      simp only [effect, setArrives_of_none t set k ho]
      rfl
    · rw [exec_eq_effect]
      simp only [effect, deadlinePasses_of_none k ho]
  case default =>
    intro s o ho
    refine ⟨?_, fun t set ht hp => ?_⟩
    · rw [exec_eq_effect]
      simp [effect, deadlinePasses_of_some {} ho, arrive_default]
    · rw [exec_eq_effect]
      simp [effect, setArrives_in_time set {} ho ht, hp, arrive_default]
  case order =>
    intro t set k s o ho ht hp
    rw [exec_eq_effect]
    simp [effect, setArrives_in_time set k ho ht, hp, arrive_eq]

/-! Saturation (R2) and parity (R1). -/

theorem saturate_spec (limit : Nat) (x : Int) :
    -(limit : Int) ≤ saturate limit x ∧ saturate limit x ≤ limit ∧
    (-(limit : Int) ≤ x → x ≤ limit → saturate limit x = x) ∧ (limit < x → saturate limit x = limit) ∧
    (x < -(limit : Int) → saturate limit x = -limit) := by
  unfold saturate
  omega

/-- A signed channel: as it stands, the nearer limit, or the limit of its word's sign (R1, R2). -/
theorem signedChannel_spec (limit : Nat) (c : RawChannel) :
    -(limit : Int) ≤ signedChannel limit c ∧ signedChannel limit c ≤ limit ∧
    (c.overRange = true → signedChannel limit c = if c.word.toInt < 0 then -(limit : Int) else limit) ∧
    (c.overRange = false → -(limit : Int) ≤ c.word.toInt → c.word.toInt ≤ limit →
      signedChannel limit c = c.word.toInt) ∧
    (c.overRange = false → limit < c.word.toInt → signedChannel limit c = limit) ∧
    (c.overRange = false → c.word.toInt < -(limit : Int) → signedChannel limit c = -(limit : Int)) := by
  obtain ⟨hlo, hhi, hin, hover, hunder⟩ := saturate_spec limit c.word.toInt
  cases ho : c.overRange with
  | false => simpa [signedChannel, ho] using ⟨hlo, hhi, hin, hover, hunder⟩
  | true =>
    have hs : signedChannel limit c = if c.word.toInt < 0 then -(limit : Int) else limit := by
      simp [signedChannel, ho, BitVec.msb_eq_toInt]
    refine ⟨?_, ?_, fun _ => hs, by simp, by simp, by simp⟩ <;> rw [hs] <;> split <;> omega

/-- An unsigned channel: as it stands, or the limit (R1, R2). -/
theorem unsignedChannel_spec (limit : Nat) (c : RawChannel) :
    unsignedChannel limit c ≤ limit ∧ (c.overRange = true → unsignedChannel limit c = limit) ∧
    (c.overRange = false → c.word.toNat ≤ limit → unsignedChannel limit c = c.word.toNat) ∧
    (c.overRange = false → limit < c.word.toNat → unsignedChannel limit c = limit) := by
  unfold unsignedChannel
  cases c.overRange <;> simp
  omega

@[simp] theorem get_map {α β : Type} (f : α → β) (x : Phases α) (p : Phase) : (x.map f).get p = f (x.get p) := by
  cases p <;> rfl

/-- Settles O15: each channel by its kind, and the count of ones. -/
theorem saturationWithinLimits : Obligations.SaturationWithinLimits := by
  unfold Obligations.SaturationWithinLimits
  refine ⟨fun raw => ⟨fun p => ⟨?_, ?_⟩, unsignedChannel_spec 12000 raw.link, unsignedChannel_spec 12000 raw.bus⟩,
    fun raw => ?_⟩
  · simpa [saturatedSet, Config.voltageLimit] using signedChannel_spec 10000 (raw.v.get p)
  · simpa [saturatedSet, Config.currentLimit] using signedChannel_spec 4000 (raw.i.get p)
  · simp [parityGood, rawChannels, popCount, List.countP_eq_length_filter, Bool.toNat, Bool.cond_eq_ite,
      Nat.add_assoc]

end Sys2Proof.Machine
end

section
/-! Strobes (R1, R3, R8). -/

namespace Sys2Proof.Machine

/-- STROBE with no outcome owed. -/
theorem exec_strobe_of_none {s : State} (h : s.spt.outstanding = none) : exec .strobe s = .next (strobeTime s) := by
  rw [exec_eq_effect]
  simp only [effect, deadlinePasses_of_none {} h]

/-- Strobe k of a run lies on the nanosecond at or before its exact time (R8; log 3). -/
theorem strobeAt_spec (r : Run) (k : Nat) (h : 0 < r.fEst) :
    r.start ≤ r.strobeAt k ∧ (r.strobeAt k - r.start) * r.den ≤ k * r.num ∧
    k * r.num < (r.strobeAt k - r.start + 1) * r.den := by
  have hd : 0 < r.den := Nat.mul_pos (by decide) h
  have hs : r.strobeAt k - r.start = k * r.num / r.den := by simp [Run.strobeAt]
  rw [hs]
  exact ⟨Nat.le_add_right _ _, Nat.div_mul_le_self _ _, Nat.lt_mul_of_div_lt (Nat.lt_succ_self _) hd⟩

/-- Half an interval, to the nanosecond at or before it (R3). -/
theorem half_spec (r : Run) (h : 0 < r.fEst) :
    r.half * (2 * r.den) ≤ r.num ∧ r.num < (r.half + 1) * (2 * r.den) := by
  have hd : 0 < 2 * r.den := Nat.mul_pos (by decide) (Nat.mul_pos (by decide) h)
  exact ⟨Nat.div_mul_le_self _ _, Nat.lt_mul_of_div_lt (Nat.lt_succ_self _) hd⟩

/-- Settles O12: the strobe of a run, the strobe that begins one, and the owed outcome that is taken first. -/
theorem strobeRaised : Obligations.StrobeRaised := by
  unfold Obligations.StrobeRaised
  refine ⟨?raised, ?begun, ?idle, ?owed, strobeAt_spec, half_spec⟩
  case raised =>
    intro s r hr ho hi
    rw [exec_strobe_of_none ho]
    simp [strobeTime, hr, hi, raiseStrobe, State.moveTo]
  case begun =>
    intro s r hr ho hi
    rw [exec_strobe_of_none ho]
    simp [strobeTime, hr, hi, beginRun, State.moveTo]
  case idle =>
    intro s hr ho
    rw [exec_strobe_of_none ho]
    simp [strobeTime, hr]
  case owed =>
    intro s u h
    have hu : deadlinePasses {} s = u := exec_next_iff.mp h
    rw [← hu, exec_strobe_of_none (deadlinePasses_owes_nothing (noResetWithin_default s))]
    rfl

end Sys2Proof.Machine
end

section
/-! Power-on and the release of RESET (R7, R167, R168, R176, R177). -/

namespace Sys2Proof.Machine

/-- Settles O4: each block's record at power-on is its initial one, field by field as the manual's tables have it. -/
theorem valuesAfterPowerOn : Obligations.ValuesAfterPowerOn := by
  unfold Obligations.ValuesAfterPowerOn
  intro zeros
  have hz : zeros = zeroCycle := by rfl
  rw [hz]
  exact ⟨rfl, rfl, rfl, rfl, rfl, rfl, rfl, rfl, rfl, rfl, rfl, rfl, rfl, rfl, rfl⟩

/-- Half an interval at 50000 mHz, with no phase error, is half of 156.25 microseconds (R3, R7). -/
theorem half_at_50000 (start : Nat) : Run.half { start := start, fEst := 50000, dc := 0 } = 78125 := by
  have h : (2048 + (0 : Int)).toNat = 2048 := by omega
  simp only [Run.half, Run.num, Run.den, h]

/-- The straps give an own slot when they have been read and lie in 0..11 (R167). -/
theorem ownSlot_eq_some_iff (s : State) (j : Nat) :
    ownSlot s = some j ↔ s.cfl.strapsRead = true ∧ s.cfl.strap.toNat = j ∧ j < 12 := by
  unfold ownSlot
  split <;> rename_i h
  · constructor
    · intro hj
      obtain rfl := Option.some.inj hj
      exact ⟨h.1, rfl, h.2⟩
    · rintro ⟨-, rfl, -⟩
      rfl
  · constructor
    · intro hj
      cases hj
    · rintro ⟨hr, rfl, hj⟩
      exact absurd ⟨hr, hj⟩ h

/-- Settles O6: the start-up is the straps, the load and the run of the first strobe. -/
theorem resetReleasedStartsUp : Obligations.ResetReleasedStartsUp := by
  unfold Obligations.ResetReleasedStartsUp
  refine ⟨fun t straps s h => ?_, fun t straps s h => ?_, ownSlot_eq_some_iff⟩
  · rw [exec_eq_effect]
    simp only [effect, h, if_true]
    rw [← half_at_50000 (max s.now t)]
    rfl
  · rw [exec_eq_effect]
    simp only [effect, h, Bool.false_eq_true, if_false]
    rfl

end Sys2Proof.Machine
end

section
/-! SUPPORT. What the work on an arrival can do to the restorer: its outputs agree with its state, OFF is not entered
while ENABLE is asserted, and LOCKOUT is not left (R101, R109, R124, R130). -/

namespace Sys2Proof.Machine

/-- A change of the restorer within an arrival. -/
structure RestorerStep (s u : State) : Prop where
  enable : u.pins.enable = s.pins.enable
  outputs : OutputsAgree s → OutputsAgree u
  off : u.rsq.state = .off → s.rsq.state = .off ∨ s.pins.enable = false
  lockout : s.rsq.state = .lockout → u.rsq.state = .lockout

namespace RestorerStep

theorem refl (s : State) : RestorerStep s s := ⟨rfl, id, .inl, id⟩

theorem trans {s u v : State} (h : RestorerStep s u) (h' : RestorerStep u v) : RestorerStep s v where
  enable := h'.enable.trans h.enable
  outputs := fun ha => h'.outputs (h.outputs ha)
  off := fun ho => (h'.off ho).elim h.off (fun he => .inr (h.enable ▸ he))
  lockout := fun hl => h'.lockout (h.lockout hl)

/-- The same, the later change named first. -/
theorem after {s u v : State} (h' : RestorerStep u v) (h : RestorerStep s u) : RestorerStep s v := h.trans h'

/-- State, bridge, bypasses and port stand. -/
theorem of_same {s u : State} (pins : u.pins = s.pins) (state : u.rsq.state = s.rsq.state)
    (bridge : u.rsq.bridge = s.rsq.bridge) (bypass : u.rsq.bypassOpen = s.rsq.bypassOpen)
    (port : u.inc.port = s.inc.port) : RestorerStep s u where
  enable := by rw [pins]
  outputs := fun h => by
    have hact := eventActive_congr state
    exact ⟨by rw [bridge, hact]; exact h.bridge, by rw [state, bypass]; exact h.injectOpen,
      by rw [state, bypass]; exact h.releaseOpen, by rw [hact, bypass]; exact h.closed,
      by rw [hact, port]; exact h.port⟩
  off := fun h => .inl (state ▸ h)
  lockout := fun h => state ▸ h

/-- RSQ and INC stand whole; other blocks may change. -/
theorem of_blocks {s u : State} (pins : u.pins = s.pins) (rsq : u.rsq = s.rsq) (inc : u.inc = s.inc) :
    RestorerStep s u := of_same pins (by rw [rsq]) (by rw [rsq]) (by rw [rsq]) (by rw [inc])

/-- An event stays one, in INJECT with every bypass open or in RELEASE with some. -/
theorem of_event {s u : State} (pins : u.pins = s.pins) (event : s.rsq.state ≠ .lockout)
    (bridge : OutputsAgree s → u.rsq.bridge = true)
    (state : u.rsq.state = .inject ∨ u.rsq.state = .release)
    (inject : u.rsq.state = .inject → OutputsAgree s → u.rsq.bypassOpen = Phases.same true)
    (release : u.rsq.state = .release → OutputsAgree s → u.rsq.bypassOpen.any = true) : RestorerStep s u where
  enable := by rw [pins]
  outputs := fun h => by
    have hact : eventActive u = true := (eventActive_iff u).mpr state
    exact ⟨by rw [bridge h, hact], fun hi => inject hi h, fun hr => release hr h, by simp [hact], by simp [hact]⟩
  off := fun h => by rcases state with e | e <;> simp [e] at h
  lockout := fun h => absurd h event

/-- No event before and none after: the outputs stand. -/
theorem of_idle {s u : State} (pins : u.pins = s.pins) (before : eventActive s = false)
    (after : eventActive u = false) (bridge : u.rsq.bridge = s.rsq.bridge)
    (bypass : u.rsq.bypassOpen = s.rsq.bypassOpen) (port : u.inc.port = s.inc.port)
    (event : s.rsq.state ≠ .lockout) (off : u.rsq.state ≠ .off) : RestorerStep s u where
  enable := by rw [pins]
  outputs := fun h => by
    refine ⟨by rw [bridge, after, h.bridge, before], fun hi => ?_, fun hr => ?_, fun _ => bypass ▸ h.closed before,
      fun _ => port ▸ h.port before⟩
    · simp [eventActive, hi] at after
    · simp [eventActive, hr] at after
  off := fun h => absurd h off
  lockout := fun h => absurd h event

end RestorerStep

variable (s : State)

theorem exitInject_step (c : EndCause) : RestorerStep s (exitInject c s) := by
  by_cases h : s.rsq.state = .inject
  · have hact : eventActive s = true := (eventActive_iff s).mpr (.inl h)
    refine .of_event (by simp) (by simp [h]) (fun ha => ?_) ?_ ?_ ?_ <;> rw [exitInject_of_inject c h]
    · exact ha.bridge.trans hact
    · exact .inr rfl
    · intro hi
      cases hi
    · intro _ ha
      rw [ha.injectOpen h]
      rfl
  · rw [exitInject_of_not_inject c h]
    exact .refl s

/-! EVC's actions (R82 to R86). -/

theorem withdraw_step (m : TableMethod) : RestorerStep s (withdraw m s) := by
  cases m with
  | withdraw => exact .after (exitInject_step _ _) (.of_blocks rfl rfl rfl)
  | presag => exact .refl s
  | inphase => exact .refl s

theorem compareLimit_step (b : Bool) : RestorerStep s (compareLimit b s) := by
  unfold compareLimit
  split
  · split
    · split
      · exact .of_blocks rfl rfl rfl
      · exact exitInject_step _ _
    · exact .refl s
  · exact .refl s

theorem putLimit_step (n : Nat) (b : Bool) : RestorerStep s (putLimit n b s) := by
  unfold putLimit
  split
  · exact .of_blocks rfl rfl rfl
  · exact .after (compareLimit_step _ _) (.of_blocks rfl rfl rfl)

theorem settleMethod_step (m : TableMethod) : RestorerStep s (settleMethod m s) := by
  unfold settleMethod
  (repeat' split) <;> exact .of_same rfl rfl rfl rfl rfl

theorem applyAction_step (b b' : Bool) (e : Option TableEntry) : RestorerStep s (applyAction b b' e s) := by
  unfold applyAction
  dsimp only
  generalize actionMethod s e = m
  generalize (e.map TableEntry.limit).getD 0 = n
  have settled : RestorerStep s (putOverride (e.bind TableEntry.override) (settleMethod m s)) :=
    (settleMethod_step s m).trans (.of_blocks rfl rfl rfl)
  generalize putOverride (e.bind TableEntry.override) (settleMethod m s) = s1 at settled
  have acted : RestorerStep s (if b then withdraw m (putLimit n b' s1) else putLimit n b' (withdraw m s1)) := by
    split
    · exact settled.trans ((putLimit_step _ _ _).trans (withdraw_step _ _))
    · exact settled.trans ((withdraw_step _ _).trans (putLimit_step _ _ _))
  generalize (if b then withdraw m (putLimit n b' s1) else putLimit n b' (withdraw m s1)) = s2 at acted
  split
  · exact acted
  · exact acted.trans (.of_blocks rfl rfl rfl)

theorem openWindow_step : RestorerStep s (openWindow s) := by
  unfold openWindow
  dsimp only
  split
  · exact .after (applyAction_step _ _ _ _) (.of_blocks rfl rfl rfl)
  · exact .of_blocks rfl rfl rfl

/-! SDU's tests (R26 to R30). -/

theorem handEnd_step (k : CompletionTaking) : RestorerStep s (handEnd k s) where
  enable := by simp
  outputs := fun h => by
    have hact : eventActive (handEnd k s) = eventActive s := eventActive_congr (by simp)
    have hport : (handEnd k s).inc.port = Phases.same 0 := by simp [handEnd, quietBlocks]
    refine ⟨?_, ?_, ?_, ?_, fun _ => hport⟩
    · rw [hact]
      simpa using h.bridge
    · simpa using h.injectOpen
    · simpa using h.releaseOpen
    · rw [hact]
      simpa using h.closed
  off := fun h => .inl (by simpa using h)
  lockout := fun h => by simpa using h

theorem takeOnset_step (k : CompletionTaking) (h : s.rsq.state = .ready) : RestorerStep s (takeOnset k s) := by
  unfold takeOnset
  dsimp only
  have opened : RestorerStep s (openRecord (numberOnset (openOnsetRecord (takeClassFields s)))) :=
    .of_same (by simp) (by simp [numberOnset]) (by simp [numberOnset]) (by simp [numberOnset]) (by simp [openRecord])
  have ready : (openRecord (numberOnset (openOnsetRecord (takeClassFields s)))).rsq.state = .ready := by
    simp [numberOnset, h]
  generalize openRecord (numberOnset (openOnsetRecord (takeClassFields s))) = s1 at opened ready
  split
  · have entered : RestorerStep s1 (enterInject s1) := by
      refine .of_event (by simp) (by simp [ready]) (fun _ => rfl) (.inl rfl) (fun _ _ => rfl) ?_
      intro hr
      cases hr
    have started : RestorerStep s1 (captureOnset (startInjection (enterInject s1))) := by
      refine .of_event (by simp) (by simp [ready]) (fun _ => by simp [enterInject])
        (.inl (by simp [enterInject])) (fun _ _ => by simp [enterInject]) ?_
      intro hr
      simp [enterInject] at hr
    exact opened.trans (started.trans (openWindow_step _))
  · refine opened.trans (.trans ?_ (handEnd_step _ _))
    exact .of_same (by simp) (by simp [refuseOnset]) (by simp [refuseOnset]) (by simp [refuseOnset]) (by simp)

theorem takeResag_step (h : s.rsq.state = .release) : RestorerStep s (takeResag s) := by
  have hact : eventActive s = true := (eventActive_iff s).mpr (.inr h)
  unfold takeResag
  split
  · refine .of_event rfl (by simp [h]) (fun ha => ?_) (.inl rfl) (fun _ _ => rfl) ?_
    · exact ha.bridge.trans hact
    · intro hr
      cases hr
  · exact .of_same rfl rfl rfl rfl rfl

theorem recoveryTest_step : RestorerStep s (recoveryTest s) := by
  unfold recoveryTest
  (repeat' split)
  · exact .of_blocks rfl rfl rfl
  · exact .after (exitInject_step _ _) (.of_blocks rfl rfl rfl)
  · exact .refl s
  · exact .of_blocks rfl rfl rfl
  · exact .refl s

theorem detect_step (k : CompletionTaking) : RestorerStep s (detect k s) := by
  unfold detect
  split
  · rename_i h
    simp only [onsetHere, Bool.and_eq_true, beq_iff_eq] at h
    exact takeOnset_step s k h.1.1
  · split
    · rename_i h
      simp only [resagHere, Bool.and_eq_true, beq_iff_eq] at h
      exact .after (takeResag_step _ (by simpa using h.1)) (.of_blocks (by simp) (by simp) (by simp))
    · exact .after (recoveryTest_step _) (.of_blocks (by simp) (by simp) (by simp))

/-! The event's end, and the faults (R124, R126, R128). -/

/-- The outputs after an event's end into a state outside an event (R101, R124). -/
theorem endEvent_outputs (k : CompletionTaking) (c : EndCause) {t : RestorerState} (hi : t ≠ .inject)
    (hr : t ≠ .release) : OutputsAgree (endEvent k c t s) := by
  have hact : eventActive (endEvent k c t s) = false := by simp [eventActive, endEvent, closeEvent, hi, hr]
  have hstate : (endEvent k c t s).rsq.state = t := by simp [endEvent, closeEvent]
  refine ⟨?_, fun h => absurd (hstate.symm.trans h) hi, fun h => absurd (hstate.symm.trans h) hr, fun _ => ?_,
    fun _ => ?_⟩
  · rw [hact]
    simp [endEvent, closeEvent]
  · simp [endEvent, closeEvent]
  · rw [endEvent_eq]

theorem endEvent_step (k : CompletionTaking) (c : EndCause) {t : RestorerState} (hi : t ≠ .inject)
    (hr : t ≠ .release) (off : t = .off → s.pins.enable = false) (h : eventActive s = true) :
    RestorerStep s (endEvent k c t s) where
  enable := by simp
  outputs := fun _ => endEvent_outputs s k c hi hr
  off := fun ho => .inr (off (by simpa [endEvent, closeEvent] using ho))
  lockout := fun hl => by simp [eventActive, hl] at h

/-- An event that ends without LOCKOUT leaves for OFF with ENABLE deasserted alone (R124). -/
theorem releaseTarget_cases :
    (releaseTarget s = .off ∧ s.pins.enable = false) ∨ releaseTarget s = .ready ∨ releaseTarget s = .charge := by
  unfold releaseTarget
  split
  · exact .inl ⟨rfl, by assumption⟩
  · split
    · exact .inr (.inl rfl)
    · exact .inr (.inr rfl)

theorem endEvent_release_step (k : CompletionTaking) (c : EndCause) (h : eventActive s = true) :
    RestorerStep s (endEvent k c (releaseTarget s) s) := by
  rcases releaseTarget_cases s with ⟨ht, he⟩ | ht | ht <;> rw [ht]
  · exact endEvent_step s k c (by decide) (by decide) (fun _ => he) h
  · exact endEvent_step s k c (by decide) (by decide) (by simp) h
  · exact endEvent_step s k c (by decide) (by decide) (by simp) h

theorem faultTaken_step (k : CompletionTaking) (c : EndCause) : RestorerStep s (faultTaken k c s) := by
  cases hs : s.rsq.state
  case inject =>
    have h : eventActive s = true := (eventActive_iff s).mpr (.inl hs)
    rw [faultTaken_of_event k c h]
    exact endEvent_step s k c (by decide) (by decide) (by simp) h
  case release =>
    have h : eventActive s = true := (eventActive_iff s).mpr (.inr hs)
    rw [faultTaken_of_event k c h]
    exact endEvent_step s k c (by decide) (by decide) (by simp) h
  case charge =>
    rw [faultTaken_of_service k c (.inl hs)]
    exact .of_idle rfl (by simp [eventActive, hs]) (by simp [eventActive]) rfl rfl rfl (by simp [hs]) (by simp)
  case ready =>
    rw [faultTaken_of_service k c (.inr hs)]
    exact .of_idle rfl (by simp [eventActive, hs]) (by simp [eventActive]) rfl rfl rfl (by simp [hs]) (by simp)
  case off =>
    rw [faultTaken_of_out k c (.inl hs)]
    exact .refl s
  case lockout =>
    rw [faultTaken_of_out k c (.inr hs)]
    exact .refl s

/-- A fault taken outside OFF leaves the restorer in LOCKOUT (R128). -/
theorem faultTaken_lockout (k : CompletionTaking) (c : EndCause) {s : State} (h : s.rsq.state ≠ .off) :
    (faultTaken k c s).rsq.state = .lockout := by
  cases hs : s.rsq.state <;> simp [faultTaken, hs, endEvent, closeEvent] at h ⊢

/-! RSQ's tests at an arrival (R111, R112, R118, R123, R126). -/

/-- A change between CHARGE and READY. -/
theorem service_step {t : RestorerState} (hs : s.rsq.state = .charge ∨ s.rsq.state = .ready)
    (ht : t = .charge ∨ t = .ready) : RestorerStep s { s with rsq := { s.rsq with state := t } } := by
  refine .of_idle rfl ?_ ?_ rfl rfl rfl ?_ ?_
  · rcases hs with h | h <;> simp [eventActive, h]
  · rcases ht with rfl | rfl <;> simp [eventActive]
  · rcases hs with h | h <;> simp [h]
  · rcases ht with rfl | rfl <;> simp

theorem readyTest_step : RestorerStep s (readyTest s) := by
  unfold readyTest
  split
  · rename_i h
    exact service_step s (.inl h.1) (.inr rfl)
  · exact .refl s

theorem lockHanded_step : RestorerStep s (lockHanded s) := by
  unfold lockHanded
  split
  · split
    · rename_i h
      exact service_step s (.inr h) (.inl rfl)
    · exact .refl s
  · exact readyTest_step s

theorem serviceTest_step : RestorerStep s (serviceTest s) := by
  unfold serviceTest
  split
  · rename_i h
    split
    · exact service_step s (.inr h) (.inl rfl)
    · exact .refl s
  · exact readyTest_step s

theorem linkRunTest_step : RestorerStep s (linkRunTest s) := by
  unfold linkRunTest
  dsimp only
  split
  · generalize (if s.spt.lastGood.link < s.settings.linkMin then s.rsq.linkLow + 1 else 0) = n
    split
    · exact .after (exitInject_step _ _) (.of_same rfl rfl rfl rfl rfl)
    · exact .of_same rfl rfl rfl rfl rfl
  · exact .refl s

theorem rampStep_step : RestorerStep s (rampStep s) := by
  unfold rampStep
  split
  · exact .of_same rfl rfl rfl rfl rfl
  · exact .refl s

/-- INC writes the port of an active event alone (R89). -/
theorem injectSet_step (n : Nat) (x : SampleSet) : RestorerStep s (injectSet n x s) := by
  unfold injectSet
  split
  · rename_i h
    simp only [handles, Bool.and_eq_true] at h
    have hact : eventActive (rampStep s) = true := by
      rw [eventActive_congr (s := s) (by unfold rampStep; split <;> rfl)]
      exact h.1
    refine (rampStep_step s).trans
      (.of_event rfl ?_ (fun ha => ha.bridge.trans hact) ((eventActive_iff (rampStep s)).mp hact)
        (fun hi ha => ha.injectOpen hi) (fun hr ha => ha.releaseOpen hr))
    intro hl
    simp [eventActive, hl] at hact
  · exact .refl s

theorem overcurrentTest_step (k : CompletionTaking) : RestorerStep s (overcurrentTest k s) := by
  unfold overcurrentTest
  split
  · rename_i h
    simp only [Bool.and_eq_true] at h
    split
    · split
      · exact .of_same rfl rfl rfl rfl rfl
      · unfold overcurrentEnd overcurrentTarget
        dsimp only
        generalize addOverEnd s.rsq.overEnds s.rsq.cycleCount = ends
        generalize hu : ({ s with rsq := { s.rsq with
          overRun := 2, overEnds := ends, overEndCount := satInc s.rsq.overEndCount } } : State) = u
        have same : RestorerStep s u := by
          subst hu
          exact .of_same rfl rfl rfl rfl rfl
        have hact : eventActive u = true := by
          subst hu
          exact h.1
        refine same.trans ?_
        split
        · exact endEvent_step u k _ (by decide) (by decide) (by simp) hact
        · have ht : releaseTarget s = releaseTarget u := by
            subst hu
            rfl
          rw [ht]
          exact endEvent_release_step u k _ hact
    · exact .of_same rfl rfl rfl rfl rfl
  · exact .refl s

theorem closeBypasses_step (k : CompletionTaking) (m : Phases Bool) (h : s.rsq.state = .release) :
    RestorerStep s (closeBypasses k m s) := by
  have hact : eventActive s = true := (eventActive_iff s).mpr (.inr h)
  rw [closeBypasses_eq]
  split
  · exact endEvent_release_step s k _ hact
  · rename_i hleft
    refine .of_event rfl (by simp [h]) (fun ha => ha.bridge.trans hact) (.inr h) ?_ ?_
    · intro hi
      rw [h] at hi
      cases hi
    · intro _ ha
      simpa [ha.releaseOpen h] using hleft

theorem closeWaits_step (k : CompletionTaking) (b : Bool) (x : Phases Int) :
    RestorerStep s (closeWaits k b x s) := by
  unfold closeWaits
  dsimp only
  split
  · rename_i h
    exact .after (closeBypasses_step _ k _ h) (.of_same rfl rfl rfl rfl rfl)
  · exact .refl s

theorem closeTimedOut_step (k : CompletionTaking) (m : Phases Bool) : RestorerStep s (closeTimedOut k m s) := by
  unfold closeTimedOut
  split
  · rename_i h
    exact closeBypasses_step s k _ h
  · exact .refl s

/-! The cycle end, and the timed steps (R13, R86, R127). -/

theorem handLock_step (l : LockState) : RestorerStep s (handLock l s) := by
  unfold handLock
  split
  · exact .refl s
  · exact lockHanded_step s

theorem countCycle_step (b : Bool) : RestorerStep s (countCycle b s) := by
  unfold countCycle
  split
  · exact .after (compareLimit_step _ _) (.of_blocks rfl rfl rfl)
  · exact .refl s

theorem countCycleEnd_step : RestorerStep s (countCycleEnd s) := .of_same rfl rfl rfl rfl rfl

theorem cycleEnd_step (b b' : Bool) : RestorerStep s (cycleEnd b b' s) :=
  .after (countCycleEnd_step _) (.after (countCycle_step _ _) (.after (handLock_step _ _) (.of_blocks rfl rfl rfl)))

theorem holdoverLimitReached_step : RestorerStep s (holdoverLimitReached s) := by
  unfold holdoverLimitReached
  split
  · exact .after (lockHanded_step _) (.of_blocks rfl rfl rfl)
  · exact .refl s

theorem expireDuration_step : RestorerStep s (expireDuration s) := by
  unfold expireDuration
  split
  · exact .after (exitInject_step _ _) (.of_blocks rfl rfl rfl)
  · exact .refl s

theorem completeDue_step : RestorerStep s (completeDue s) := .of_blocks (by simp) (by simp) (by simp)

theorem settleDue_step : RestorerStep s (settleDue s) :=
  (holdoverLimitReached_step s).trans
    ((closeTimedOut_step _ _ _).trans ((expireDuration_step _).trans (completeDue_step _)))

theorem beginWaits_step : RestorerStep s (beginWaits s) := by
  unfold beginWaits
  split
  · exact .of_same rfl rfl rfl rfl rfl
  · exact .refl s

theorem takeSet_step (n : Nat) (g : Option SampleSet) : RestorerStep s (takeSet n g s) := by
  unfold takeSet
  exact .after (beginWaits_step _) (.of_same (by simp) (by simp) (by simp) (by simp) (by simp))

theorem arrivalPart_step (k : ArrivalTaking) (a : Arrival) (p : ArrivalPart) :
    RestorerStep s (arrivalPart k a p s) := by
  cases p <;> simp only [arrivalPart]
  case sense =>
    split
    · exact faultTaken_step s _ _
    · exact .refl s
  case detect => exact detect_step s _
  case cycleEnd =>
    split
    · exact cycleEnd_step s _ _
    · exact .refl s
  case inject => exact injectSet_step s _ _
  case service => exact serviceTest_step s
  case linkRun => exact linkRunTest_step s
  case overcurrent => exact overcurrentTest_step s _
  case closeWaits => exact closeWaits_step s _ _ _
  case completion =>
    split
    · exact .refl s
    · exact completeDue_step s

end Sys2Proof.Machine
end

section
/-! The SENSE fault of the fourth consecutive missing set (R5, R128, R129). -/

namespace Sys2Proof.Machine

/-- Parts that take a property into itself or into LOCKOUT, one of them into LOCKOUT for certain, and that leave LOCKOUT
to itself, take it into LOCKOUT in every order. -/
theorem foldl_reaches {α σ : Type} (f : σ → α → σ) (P Q : σ → Prop) (a : α) (keep : ∀ s x, P s → P (f s x))
    (reach : ∀ s, P s → Q (f s a)) (stay : ∀ s x, P s → Q s → Q (f s x)) {l : List α} (ha : a ∈ l) {s : σ}
    (hs : P s) : Q (l.foldl f s) := by
  have held : ∀ (l : List α) (s : σ), P s → Q s → Q (l.foldl f s) := by
    intro l
    induction l with
    | nil => exact fun s _ hq => hq
    | cons x l ih => exact fun s hp hq => ih _ (keep s x hp) (stay s x hp hq)
  induction l generalizing s with
  | nil => cases ha
  | cons x l ih =>
    rcases List.mem_cons.mp ha with rfl | hl
    · exact held l _ (keep s a hs) (reach s hs)
    · exact ih hl (keep s x hs)

/-- A restorer out of OFF, with ENABLE asserted and its outputs in agreement. -/
structure InService (s : State) : Prop where
  outputs : OutputsAgree s
  enable : s.pins.enable = true
  state : s.rsq.state ≠ .off

theorem InService.step {s u : State} (hs : InService s) (h : RestorerStep s u) : InService u where
  outputs := h.outputs hs.outputs
  enable := h.enable.trans hs.enable
  state := fun ho => (h.off ho).elim hs.state (fun he => by simp [hs.enable] at he)

/-- In LOCKOUT the outputs are off (R101, R109). -/
theorem OutputsAgree.off_of_lockout {s : State} (h : OutputsAgree s) (hs : s.rsq.state = .lockout) :
    s.rsq.bridge = false ∧ s.rsq.bypassOpen = Phases.same false ∧ s.inc.port = Phases.same 0 := by
  have hact : eventActive s = false := by simp [eventActive, hs]
  exact ⟨h.bridge.trans hact, h.closed hact, h.port hact⟩

/-- An arrival that no soft reset abandons, with the SENSE fault among its parts, ends in LOCKOUT. -/
theorem arrive_sense_lockout {k : ArrivalTaking} {s : State} (hk : NoResetWithin k s) (hs : InService s) (n : Nat)
    (hm : s.spt.missRun = 3) :
    InService (arrive k n none s) ∧ (arrive k n none s).rsq.state = .lockout := by
  have start : InService (takeSet n none (settleDue s)) := hs.step ((settleDue_step s).trans (takeSet_step _ _ _))
  have mem : ArrivalPart.sense ∈ arrivalOrder k := List.count_pos_iff.mp (by rw [count_arrivalOrder]; decide)
  rw [arrive_eq, takeParts_of_noResetWithin _ _ (hk.of_quiesce (by simp [takeSet_enters])), hm]
  generalize ha : ({ index := n, before := s.spt.lastGood.i
                     sense := (none : Option SampleSet).isNone && (3 : BitVec 8) == 3 } : Arrival) = a
  refine foldl_reaches _ InService (fun u => InService u ∧ u.rsq.state = .lockout) .sense
    (fun u p hu => hu.step (arrivalPart_step u k a p)) (fun u hu => ?_) (fun u p hu hq => ?_) mem start
  · refine ⟨hu.step (arrivalPart_step u k a .sense), ?_⟩
    subst ha
    exact faultTaken_lockout k.completion .sense hu.state
  · exact ⟨hu.step (arrivalPart_step u k a p), (arrivalPart_step u k a p).lockout hq.2⟩

/-- Settles O19: LOCKOUT is reached by the SENSE fault's part wherever it stands in the order, and no other part leaves
it. -/
theorem senseFaultLocksOut : Obligations.SenseFaultLocksOut := by
  unfold Obligations.SenseFaultLocksOut
  refine ⟨?arrival, fun k s => ⟨fun h => ?_, faultTaken_of_service k .sense, faultTaken_of_out k .sense⟩⟩
  case arrival =>
    intro k s o hk ho hm hstate hen hout
    refine ⟨_, exec_eq_effect _ s, ?_⟩
    simp only [effect, deadlinePasses_of_some k ho]
    have moved : InService (s.moveTo o.deadline) :=
      InService.step ⟨hout, hen, hstate⟩ (.of_blocks (by simp) (by simp) (by simp))
    obtain ⟨hu, hl⟩ :=
      arrive_sense_lockout (NoResetWithin.of_quiesce hk (by simp)) moved o.index (by simpa using hm)
    exact ⟨hl, hu.outputs.off_of_lockout hl⟩
  · rw [faultTaken_of_event k .sense h]
    rfl

end Sys2Proof.Machine
end

section
/-! SUPPORT. PRU's arithmetic and its notes of a cycle: rounding, the crossing position, the band, the good cycle
(R9 to R11, R17). -/

namespace Sys2Proof.Machine

/-- A round division for a numerator that is not negative: the nearest, and the greater of two (00 section 4.2). -/
theorem roundDiv_nonneg {n d : Int} (hn : 0 ≤ n) (hd : 0 < d) :
    -d < 2 * (roundDiv n d * d - n) ∧ 2 * (roundDiv n d * d - n) ≤ d := by
  have hq : roundDiv n d = Int.fdiv (2 * n + d) (2 * d) := by simp [roundDiv, hn]
  have h2 : 0 < 2 * d := by omega
  rw [hq, Int.fdiv_eq_ediv_of_nonneg _ h2.le]
  have hle := Int.ediv_mul_le (2 * n + d) h2.ne'
  have hlt := Int.lt_ediv_add_one_mul_self (2 * n + d) h2
  generalize (2 * n + d) / (2 * d) = q at hle hlt
  have e : q * (2 * d) = 2 * (q * d) := by ring
  have e' : (q + 1) * (2 * d) = 2 * (q * d) + 2 * d := by ring
  rw [e] at hle
  rw [e'] at hlt
  omega

/-- Rounding is the same on either side of 0 (00 section 4.2). -/
theorem roundDiv_neg {n d : Int} (hn : n < 0) : roundDiv n d = -roundDiv (-n) d := by
  have h1 : ¬ 0 ≤ n := by omega
  have h2 : 0 ≤ -n := by omega
  unfold roundDiv
  rw [if_neg h1, if_pos h2]

/-- The nearest multiple; of two, the one away from zero (00 section 4.2). -/
theorem roundDiv_spec {n d : Int} (hd : 0 < d) :
    2 * |roundDiv n d * d - n| ≤ d ∧ (2 * |roundDiv n d * d - n| = d → |n| < |roundDiv n d * d|) := by
  have key : ∀ m : Int, 0 ≤ m → 2 * |roundDiv m d * d - m| ≤ d ∧
      (2 * |roundDiv m d * d - m| = d → |m| < |roundDiv m d * d|) := by
    intro m hm
    have h := roundDiv_nonneg hm hd
    generalize roundDiv m d * d = p at h ⊢
    simp only [Int.abs_eq_natAbs]
    omega
  by_cases hn : 0 ≤ n
  · exact key n hn
  · have hneg : n < 0 := by omega
    have h := key (-n) (by omega)
    rw [roundDiv_neg hneg, Int.neg_mul]
    generalize roundDiv (-n) d * d = p at h ⊢
    simp only [Int.abs_eq_natAbs] at h ⊢
    omega

/-- The crossing position before it is brought into -1024..1023 lies within the sixteen steps of its sample (R9). -/
theorem crossing_steps {k : Nat} {before v : Int} (hb : before < 0) (hv : 0 ≤ v) :
    16 * (k : Int) - 16 ≤ roundDiv (16 * (k * (v - before) - v)) (v - before) ∧
    roundDiv (16 * (k * (v - before) - v)) (v - before) ≤ 16 * k := by
  have hd : 0 < v - before := by omega
  have hvd : v < v - before := by omega
  generalize v - before = d at hd hvd ⊢
  have h := (roundDiv_spec (n := 16 * (k * d - v)) hd).1
  generalize roundDiv (16 * (k * d - v)) d = q at h ⊢
  obtain ⟨hlo, hhi⟩ := abs_le.mp (show |2 * (q * d - 16 * (k * d - v))| ≤ d by rwa [abs_mul, abs_two])
  constructor <;> by_contra hc
  · have hq : q * d ≤ (16 * k - 17) * d := Int.mul_le_mul_of_nonneg_right (by omega) hd.le
    linarith
  · have hq : (16 * k + 1) * d ≤ q * d := Int.mul_le_mul_of_nonneg_right (by omega) hd.le
    linarith

/-- The crossing position of a set in the cycle (R9). -/
theorem crossingD_spec {k : Nat} {before v : Int} (hk : k < 128) (hb : before < 0) (hv : 0 ≤ v) :
    -1024 ≤ crossingD k before v ∧ crossingD k before v ≤ 1023 := by
  have h := crossing_steps (k := k) hb hv
  unfold crossingD
  dsimp only
  generalize roundDiv (16 * (k * (v - before) - v)) (v - before) = d at h ⊢
  split <;> omega

/-! The notes of a cycle (R9, R10, R16, R17). -/

theorem crosses_iff (b : Option Int) (v : Int) : crosses b v = true ↔ ∃ x, b = some x ∧ x < 0 ∧ 0 ≤ v := by
  cases b <;> simp [crosses]

/-- Some phase is in a mask. -/
theorem any_iff (x : Phases Bool) : x.any = true ↔ ∃ p, x.get p = true := by
  constructor
  · intro h
    simp only [Phases.any, Bool.or_eq_true] at h
    rcases h with (h | h) | h
    · exact ⟨.a, h⟩
    · exact ⟨.b, h⟩
    · exact ⟨.c, h⟩
  · rintro ⟨p, hp⟩
    cases p <;> simp_all [Phases.any, Phases.get]

/-- Some residual stands outside 900..1100 (R17). -/
theorem unhealthy_residual_iff (r : Phases Nat) :
    (r.map residualHealthy).all = false ↔ ∃ p, r.get p < 900 ∨ 1100 < r.get p := by
  have one : ∀ n, residualHealthy n = false ↔ n < 900 ∨ 1100 < n := by
    intro n
    rw [← Bool.not_eq_true]
    simp only [residualHealthy, Bool.and_eq_true, decide_eq_true_eq]
    omega
  constructor
  · intro h
    simp only [Phases.all, Phases.map, Bool.and_eq_false_iff, one] at h
    rcases h with (h | h) | h
    · exact ⟨.a, h⟩
    · exact ⟨.b, h⟩
    · exact ⟨.c, h⟩
  · rintro ⟨p, hp⟩
    rw [← one] at hp
    cases p <;> simp_all [Phases.all, Phases.map, Phases.get]

/-! The good cycle and the correction (R10, R11). -/

theorem fourConditions_iff (c : Cycle) :
    fourConditions c = true ↔
      c.crossings = 1 ∧ c.lowA = false ∧ c.missing = false ∧ ∃ d, c.firstD = some d ∧ d.natAbs ≤ 32 := by
  unfold fourConditions
  cases c.firstD with
  | none => simp
  | some d => simp [and_comm, and_left_comm]

/-- With the four conditions every lock state corrects by the first crossing's position (R11). -/
theorem correctionD_of_four {c : Cycle} (l : LockState) (h : fourConditions c = true) :
    correctionD l c = c.firstD := by
  cases l <;> simp [correctionD, h]

/-- ACQUIRE corrects by any crossing; the other lock states by a cycle of the four conditions (R11). -/
theorem correctionD_eq_some_iff (l : LockState) (c : Cycle) (d : Int) :
    correctionD l c = some d ↔ c.firstD = some d ∧ (l = .acquire ∨ fourConditions c = true) := by
  cases l with
  | acquire => simp [correctionD]
  | locked | holdover => simp [correctionD, and_comm]

/-- A cycle is good by the four conditions and an estimate that the band does not clamp (R10). -/
theorem cycleGood_iff (s : State) :
    cycleGood s = true ↔
      s.pru.cycle.crossings = 1 ∧ s.pru.cycle.lowA = false ∧ s.pru.cycle.missing = false ∧
      ∃ d, s.pru.cycle.firstD = some d ∧ d.natAbs ≤ 32 ∧
        correctionClamped s.settings.fNom s.pru.fEst d = false := by
  unfold cycleGood
  by_cases h4 : fourConditions s.pru.cycle = true
  · rw [correctionD_of_four _ h4, h4]
    obtain ⟨hc, hl, hm, d, hd, hr⟩ := (fourConditions_iff _).mp h4
    simp [hd, hc, hl, hm, hr]
  · have : ¬ (s.pru.cycle.crossings = 1 ∧ s.pru.cycle.lowA = false ∧ s.pru.cycle.missing = false ∧
        ∃ d, s.pru.cycle.firstD = some d ∧ d.natAbs ≤ 32 ∧
          correctionClamped s.settings.fNom s.pru.fEst d = false) := by
      rintro ⟨hc, hl, hm, d, hd, hr, -⟩
      exact h4 ((fourConditions_iff _).mpr ⟨hc, hl, hm, d, hd, hr⟩)
    simp [h4, this]

/-- The estimate after a correction is the step of R11, brought to the nearer edge of the band beyond it. -/
theorem correctedF_spec (fNom fEst : Nat) (d : Int) :
    bandLow fNom ≤ correctedF fNom fEst d ∧ correctedF fNom fEst d ≤ bandHigh fNom ∧
    (bandLow fNom ≤ steppedF fEst d → steppedF fEst d ≤ bandHigh fNom →
      correctedF fNom fEst d = steppedF fEst d ∧ correctionClamped fNom fEst d = false) ∧
    (steppedF fEst d < bandLow fNom →
      correctedF fNom fEst d = bandLow fNom ∧ correctionClamped fNom fEst d = true) ∧
    (bandHigh fNom < steppedF fEst d →
      correctedF fNom fEst d = bandHigh fNom ∧ correctionClamped fNom fEst d = true) := by
  have hb : bandLow fNom ≤ bandHigh fNom := Nat.mul_le_mul_right _ (by decide)
  unfold correctionClamped correctedF clampNat
  generalize steppedF fEst d = x
  generalize bandLow fNom = lo at hb ⊢
  generalize bandHigh fNom = hi at hb ⊢
  simp only [decide_eq_true_eq, decide_eq_false_iff_not]
  omega

/-- The evaluation's correction: by the position that the lock state corrects by, or none (R11). -/
theorem evaluateCycle_correction (apart : Bool) (s : State) :
    (∀ d, correctionD s.pru.lock s.pru.cycle = some d →
      (evaluateCycle apart s).fEst = correctedF s.settings.fNom s.pru.fEst d ∧ (evaluateCycle apart s).dc = d) ∧
    (correctionD s.pru.lock s.pru.cycle = none →
      (evaluateCycle apart s).fEst = s.pru.fEst ∧ (evaluateCycle apart s).dc = 0) := by
  unfold evaluateCycle
  dsimp only
  rw [lockTransition_frame]
  constructor
  · intro d hd
    simp [hd]
  · intro hd
    simp [hd]

/-- Outside an event the cycle end is the evaluation and the stored cycle's refresh or aging (R14). -/
theorem cycleEndPru_of_no_event (apart : Bool) {s : State} (h : eventActive s = false) :
    cycleEndPru apart s = ageOrRefresh s.sdu.sum128 (evaluateCycle apart s) := by
  simp [cycleEndPru, h]

end Sys2Proof.Machine
end

section
/-! The correction of frequency and phase (R9 to R11). -/

namespace Sys2Proof.Machine

/-- What PRU notes of a set (R9, R10, R16, R17). -/
theorem noteSet_spec (k : Nat) (v : Phases Int) (missing : Bool) (s : State) :
    let c := if k = 0 then Cycle.start else s.pru.cycle
    let n := (noteSet k v missing s).pru.cycle
    (∀ b, s.pru.prevVA = some b → b < 0 → 0 ≤ v.a →
      n.crossings = c.crossings + 1 ∧ n.firstD = some (c.firstD.getD (crossingD k b v.a))) ∧
    (s.pru.prevVA = none ∨ (∃ b, s.pru.prevVA = some b ∧ 0 ≤ b) ∨ v.a < 0 →
      n.crossings = c.crossings ∧ n.firstD = c.firstD) ∧
    (n.lowA = true ↔ c.lowA = true ∨ s.sdu.residual.a < 500) ∧
    (n.missing = true ↔ c.missing = true ∨ missing = true) ∧
    (n.unhealthy = true ↔ c.unhealthy = true ∨
      ∃ p, s.sdu.flags.get p = true ∨ s.sdu.residual.get p < 900 ∨ 1100 < s.sdu.residual.get p) := by
  intro c n
  refine ⟨fun b hb hneg hv => ?_, fun h => ?_, ?_, ?_, ?_⟩
  · have hc : crosses (some b) v.a = true := (crosses_iff _ _).mpr ⟨b, rfl, hneg, hv⟩
    have hf : n.firstD = if c.firstD.isNone then some (crossingD k b v.a) else c.firstD := by
      simp [n, noteSet, hb, hc, c]
    refine ⟨by simp [n, noteSet, hb, hc, c], ?_⟩
    rw [hf]
    cases c.firstD <;> rfl
  · have hc : crosses s.pru.prevVA v.a = false := by
      rw [← Bool.not_eq_true, crosses_iff]
      rintro ⟨x, hx, hneg, hv⟩
      rcases h with h | ⟨b, hb, hpos⟩ | h
      · simp [h] at hx
      · rw [hb] at hx
        cases hx
        omega
      · omega
    simp [n, noteSet, hc, c]
  · simp [n, noteSet, c]
  · simp [n, noteSet, c]
  · simp only [n, noteSet, Bool.or_eq_true, any_iff, Bool.not_eq_true', unhealthy_residual_iff, exists_or, or_assoc]
    rfl

/-- Settles O17: rounding, the notes, the good cycle and the band, each by its own lemma. -/
theorem frequencyCorrectionInBand : Obligations.FrequencyCorrectionInBand := by
  unfold Obligations.FrequencyCorrectionInBand
  refine ⟨fun n d hd => roundDiv_spec hd, fun k before v hk hb hv => ⟨rfl, crossingD_spec hk hb hv⟩, ?notes,
    cycleGood_iff, ?correction, fun fNom fEst d => correctedF_spec fNom fEst d, rfl, rfl, rfl, rfl⟩
  case notes =>
    intro k v missing s
    obtain ⟨h1, h2, h3, h4, h5⟩ := noteSet_spec k v missing s
    exact ⟨rfl, h1, h2, h3, h4, h5, rfl⟩
  case correction =>
    intro apart s hact c four u
    have h4 : four ↔ fourConditions c = true := (fourConditions_iff c).symm
    have hu : u.fEst = (evaluateCycle apart s).fEst ∧ u.dc = (evaluateCycle apart s).dc := by
      simp only [u, cycleEndPru_of_no_event apart hact]
      rw [ageOrRefresh_frame]
      exact ⟨rfl, rfl⟩
    obtain ⟨hsome, hnone⟩ := evaluateCycle_correction apart s
    rw [hu.1, hu.2]
    refine ⟨fun d hd hl => hsome d ?_, fun h => hnone ?_⟩
    · rw [correctionD_eq_some_iff, ← h4]
      exact ⟨hd, hl⟩
    · rw [Option.eq_none_iff_forall_ne_some]
      intro d hd
      obtain ⟨hf, hl⟩ := (correctionD_eq_some_iff _ _ d).mp hd
      rw [← h4] at hl
      rcases h with h | ⟨ha, hn⟩
      · rw [h] at hf
        cases hf
      · exact hl.elim ha hn

end Sys2Proof.Machine
end

section
/-! SUPPORT. The lock states and the cycle end: what RSQ makes of a change, the rows of the lock transition, the stored
cycle, and the duration limit (R12 to R17, R86, R111, R112). -/

namespace Sys2Proof.Machine

variable {s : State}

/-! A change of lock handed to RSQ (R15, R111, R112). -/

/-- ACQUIRE takes READY to CHARGE and no other state anywhere (R112). -/
theorem lockHanded_of_acquire (h : s.pru.lock = .acquire) :
    lockHanded s = { s with rsq := { s.rsq with
      state := if s.rsq.state = .ready then .charge else s.rsq.state } } := by
  unfold lockHanded
  rw [if_pos h]
  split <;> rfl

/-- The other lock states are tested for READY (R111). -/
theorem lockHanded_of_not_acquire (h : s.pru.lock ≠ .acquire) :
    lockHanded s = { s with rsq := { s.rsq with
      state := if s.rsq.state = .charge ∧ s.settings.linkReady ≤ s.spt.lastGood.link ∧ s.pru.lock = .locked ∧
        onLine s = true then .ready else s.rsq.state } } := by
  unfold lockHanded readyTest
  rw [if_neg h]
  split <;> rfl

/-- RSQ takes a lock change in its state alone, and begins or ends no event by it. -/
theorem lockHanded_eq (s : State) :
    lockHanded s = { s with rsq := { s.rsq with state := (lockHanded s).rsq.state } } ∧
    eventActive (lockHanded s) = eventActive s := by
  by_cases h : s.pru.lock = .acquire
  · rw [lockHanded_of_acquire h]
    refine ⟨rfl, ?_⟩
    by_cases hr : s.rsq.state = .ready
    · simp only [eventActive, hr]
      rfl
    · simp [eventActive, hr]
  · rw [lockHanded_of_not_acquire h]
    refine ⟨rfl, ?_⟩
    by_cases hc : s.rsq.state = .charge
    · simp only [eventActive, hc]
      split <;> rfl
    · simp [eventActive, hc]

theorem handLock_eq (l : LockState) (s : State) :
    handLock l s = { s with rsq := { s.rsq with state := (handLock l s).rsq.state } } ∧
    eventActive (handLock l s) = eventActive s := by
  unfold handLock
  split
  · exact ⟨rfl, rfl⟩
  · exact lockHanded_eq s

/-! HOLDOVER_LIMIT (R13, R14). -/

theorem holdoverLimitReached_of_limit (hl : s.pru.lock = .holdover)
    (hn : s.settings.holdoverLimit ≤ s.pru.holdoverCount) (he : eventActive s = false) :
    holdoverLimitReached s = lockHanded { s with pru := acquireEntry s.pru } := by
  simp [holdoverLimitReached, hl, hn, he]

theorem holdoverLimitReached_of_not
    (h : s.pru.lock ≠ .holdover ∨ s.pru.holdoverCount < s.settings.holdoverLimit ∨ eventActive s = true) :
    holdoverLimitReached s = s := by
  unfold holdoverLimitReached
  rw [if_neg]
  rintro ⟨hl, hn, he⟩
  rcases h with h | h | h
  · exact h hl
  · omega
  · simp [he] at h

/-! The rows of R12. -/

/-- The good-cycle count after the evaluation of a cycle (R12). -/
def goodCountAfter (s : State) : Half := if cycleGood s = true then satInc s.pru.goodCount else 0

theorem evaluateCycle_of_acquire (apart : Bool) (h : s.pru.lock = .acquire) :
    (evaluateCycle apart s).goodCount = goodCountAfter s ∧
    (evaluateCycle apart s).holdoverCount = s.pru.holdoverCount ∧
    (evaluateCycle apart s).ref.valid = s.pru.ref.valid ∧
    (16 ≤ (goodCountAfter s).toNat → (evaluateCycle apart s).lock = .locked) ∧
    ((goodCountAfter s).toNat < 16 → (evaluateCycle apart s).lock = .acquire) := by
  unfold evaluateCycle lockTransition
  simp only [h]
  rw [show (if cycleGood s = true then satInc s.pru.goodCount else 0) = goodCountAfter s from rfl]
  by_cases h16 : 16 ≤ (goodCountAfter s).toNat
  · rw [if_pos h16]
    exact ⟨rfl, rfl, rfl, fun _ => rfl, fun hlt => absurd h16 (Nat.not_le.mpr hlt)⟩
  · rw [if_neg h16]
    exact ⟨rfl, rfl, rfl, fun hle => absurd hle h16, fun _ => rfl⟩

theorem evaluateCycle_of_locked (apart : Bool) (h : s.pru.lock = .locked) :
    (evaluateCycle apart s).goodCount = goodCountAfter s ∧
    (evaluateCycle apart s).ref.valid = s.pru.ref.valid ∧
    (cycleGood s = true → (evaluateCycle apart s).lock = .locked ∧
      (evaluateCycle apart s).holdoverCount = s.pru.holdoverCount) ∧
    (cycleGood s = false → (evaluateCycle apart s).lock = .holdover ∧
      (evaluateCycle apart s).holdoverCount = 0) := by
  unfold evaluateCycle lockTransition
  simp only [h]
  cases hg : cycleGood s <;> simp [goodCountAfter, hg]

/-- HOLDOVER is left for LOCKED at sixteen good cycles, else for ACQUIRE at the limit when the cycle end takes it. -/
theorem evaluateCycle_of_holdover (apart : Bool) (h : s.pru.lock = .holdover) :
    (16 ≤ (goodCountAfter s).toNat →
      (evaluateCycle apart s).lock = .locked ∧ (evaluateCycle apart s).goodCount = goodCountAfter s ∧
      (evaluateCycle apart s).holdoverCount = 0 ∧ (evaluateCycle apart s).ref.valid = s.pru.ref.valid) ∧
    ((goodCountAfter s).toNat < 16 → s.settings.holdoverLimit ≤ s.pru.holdoverCount + 1 ∧ apart = false →
      (evaluateCycle apart s).lock = .acquire ∧ (evaluateCycle apart s).goodCount = 0 ∧
      (evaluateCycle apart s).holdoverCount = 0 ∧ (evaluateCycle apart s).ref.valid = false) ∧
    ((goodCountAfter s).toNat < 16 → ¬ (s.settings.holdoverLimit ≤ s.pru.holdoverCount + 1 ∧ apart = false) →
      (evaluateCycle apart s).lock = .holdover ∧ (evaluateCycle apart s).goodCount = goodCountAfter s ∧
      (evaluateCycle apart s).holdoverCount = s.pru.holdoverCount + 1 ∧
      (evaluateCycle apart s).ref.valid = s.pru.ref.valid) := by
  unfold evaluateCycle lockTransition
  simp only [h]
  rw [show (if cycleGood s = true then satInc s.pru.goodCount else 0) = goodCountAfter s from rfl]
  refine ⟨fun h16 => ?_, fun h16 hl => ?_, fun h16 hl => ?_⟩
  · rw [if_pos h16]
    exact ⟨rfl, rfl, rfl, rfl⟩
  · rw [if_neg (Nat.not_le.mpr h16), if_pos hl]
    exact ⟨rfl, rfl, rfl, rfl⟩
  · rw [if_neg (Nat.not_le.mpr h16), if_neg hl]
    exact ⟨rfl, rfl, rfl, rfl⟩

/-- The reference-valid flag is lost by the entry to ACQUIRE alone (R13). -/
theorem evaluateCycle_valid (apart : Bool) (s : State) :
    (evaluateCycle apart s).ref.valid =
      (s.pru.ref.valid && !decide (s.pru.lock = .holdover ∧ (evaluateCycle apart s).lock = .acquire)) := by
  cases hl : s.pru.lock with
  | acquire =>
    obtain ⟨-, -, hv, -, -⟩ := evaluateCycle_of_acquire apart hl
    simp [hv]
  | locked =>
    obtain ⟨-, hv, -, -⟩ := evaluateCycle_of_locked apart hl
    simp [hv]
  | holdover =>
    obtain ⟨hlocked, hentry, hstay⟩ := evaluateCycle_of_holdover apart hl
    by_cases h16 : 16 ≤ (goodCountAfter s).toNat
    · obtain ⟨hlock, -, -, hv⟩ := hlocked h16
      simp [hv, hlock]
    · by_cases hlim : s.settings.holdoverLimit ≤ s.pru.holdoverCount + 1 ∧ apart = false
      · obtain ⟨hlock, -, -, hv⟩ := hentry (Nat.not_le.mp h16) hlim
        simp [hv, hlock]
      · obtain ⟨hlock, -, -, hv⟩ := hstay (Nat.not_le.mp h16) hlim
        simp [hv, hlock]

/-! The stored cycle (R16, R17). -/

theorem refreshes_iff (p : Pru) :
    refreshes p = true ↔
      p.lock = .locked ∧ p.cycle.unhealthy = false ∧ p.cycle.missing = false ∧ p.cycle.eventEnded = false := by
  simp [refreshes, and_assoc]

/-- Outside an event PRU's fields other than the stored cycle are those of the evaluation. -/
theorem cycleEndPru_fields (apart : Bool) (h : eventActive s = false) :
    (cycleEndPru apart s).lock = (evaluateCycle apart s).lock ∧
    (cycleEndPru apart s).goodCount = (evaluateCycle apart s).goodCount ∧
    (cycleEndPru apart s).holdoverCount = (evaluateCycle apart s).holdoverCount := by
  rw [cycleEndPru_of_no_event apart h, ageOrRefresh_frame]
  exact ⟨rfl, rfl, rfl⟩

/-- The stored cycle after a cycle end outside an event. -/
theorem cycleEndPru_ref (apart : Bool) (h : eventActive s = false) :
    let healthy := s.pru.cycle.unhealthy = false ∧ s.pru.cycle.missing = false ∧ s.pru.cycle.eventEnded = false
    let u := cycleEndPru apart s
    (u.lock = .locked ∧ healthy → u.ref =
      { samples := s.pru.candidate, rms := s.sdu.sum128.map (fun x => isqrt (x / 128)), age := 0, valid := true }) ∧
    (¬ (u.lock = .locked ∧ healthy) → u.ref =
      { s.pru.ref with
        age := satInc s.pru.ref.age
        valid := s.pru.ref.valid && !decide (s.pru.lock = .holdover ∧ u.lock = .acquire) }) := by
  intro healthy u
  have hlock : u.lock = (evaluateCycle apart s).lock := (cycleEndPru_fields apart h).1
  have hframe := evaluateCycle_frame s apart
  have hr : refreshes (evaluateCycle apart s) = true ↔ u.lock = .locked ∧ healthy := by
    rw [refreshes_iff, hlock, hframe]
  rw [← hr, hlock, ← evaluateCycle_valid]
  simp only [u, cycleEndPru_of_no_event apart h]
  unfold ageOrRefresh
  refine ⟨fun hq => ?_, fun hq => ?_⟩
  · rw [if_pos hq, hframe]
  · rw [if_neg hq, hframe]

/-! The cycle end of no event (R12, R15, R127). -/

theorem cycleEnd_of_no_event (apart expiry : Bool) (h : eventActive s = false) :
    cycleEnd apart expiry s = countCycleEnd (handLock s.pru.lock { s with pru := cycleEndPru apart s }) := by
  have hact : eventActive (handLock s.pru.lock { s with pru := cycleEndPru apart s }) = false :=
    (handLock_eq _ _).2.trans h
  simp [cycleEnd, countCycle, hact]

/-! The duration limit (R86). -/

/-- The count of cycle ends has reached the limit in force, in INJECT. -/
def LimitReached (s : State) : Prop :=
  s.rsq.state = .inject ∧ ∃ limit, s.evc.limit = some limit ∧ limit ≤ s.evc.cycles.toNat

theorem compareLimit_of_not_reached (apart : Bool) (h : ¬ LimitReached s) : compareLimit apart s = s := by
  unfold compareLimit
  split
  · rename_i n hn
    rw [if_neg]
    exact fun hc => h ⟨hc.2, n, hn, hc.1⟩
  · rfl

theorem compareLimit_of_reached (apart : Bool) (h : LimitReached s) :
    compareLimit apart s =
      if apart then { s with evc := { s.evc with expiryDue := true } } else exitInject .duration s := by
  obtain ⟨hi, n, hn, hle⟩ := h
  simp [compareLimit, hn, hi, hle]

/-! An arrival in OFF: no part but the cycle end and a completion has work. -/

theorem lockHanded_of_off (h : s.rsq.state = .off) : lockHanded s = s := by
  simp [lockHanded, readyTest, h]

theorem eventActive_of_off (h : s.rsq.state = .off) : eventActive s = false := by
  simp [eventActive, h]

theorem settleDue_state_of_off (h : s.rsq.state = .off) : (settleDue s).rsq.state = .off := by
  have h1 : (holdoverLimitReached s).rsq = s.rsq := by
    unfold holdoverLimitReached
    split
    · rw [lockHanded_of_off (by exact h)]
    · rfl
  have h2 : closeTimedOut .afterNo (Phases.same true) (holdoverLimitReached s) = holdoverLimitReached s := by
    simp [closeTimedOut, h1, h]
  have h3 : (expireDuration (holdoverLimitReached s)).rsq = s.rsq := by
    unfold expireDuration
    split
    · rw [exitInject_of_not_inject _ (by simp [h1, h])]
      exact h1
    · exact h1
  simp [settleDue, h2, h3, h]

theorem takeSet_state (n : Nat) (g : Option SampleSet) (s : State) :
    (takeSet n g s).rsq.state = s.rsq.state := by
  unfold takeSet beginWaits
  dsimp only
  split <;> simp

theorem detect_of_off (k : CompletionTaking) (h : s.rsq.state = .off) : detect k s = accumulate s := by
  simp [detect, onsetHere, resagHere, recoveryTest, h]

/-- The parts that follow the cycle end in the default order, in OFF. -/
theorem later_parts_of_off (k : CompletionTaking) (b : Bool) (n : Nat) (set : SampleSet) (x : Phases Int)
    (h : s.rsq.state = .off) :
    closeWaits k b x (overcurrentTest k (linkRunTest (serviceTest (injectSet n set s)))) = s := by
  have h1 : injectSet n set s = s := by simp [injectSet, handles, eventActive, h]
  have h2 : serviceTest s = s := by simp [serviceTest, readyTest, h]
  have h3 : linkRunTest s = s := by simp [linkRunTest, h]
  have h4 : overcurrentTest k s = s := by simp [overcurrentTest, eventActive, h]
  simp [h1, h2, h3, h4, closeWaits, h]

theorem cycleEnd_state_of_off (apart expiry : Bool) (h : s.rsq.state = .off) :
    (cycleEnd apart expiry s).rsq.state = .off := by
  rw [cycleEnd_of_no_event _ _ (eventActive_of_off h)]
  unfold handLock
  split
  · exact h
  · rw [lockHanded_of_off (by exact h)]
    exact h

/-- The cycle end reads nothing that the onset record's accumulation changes. -/
theorem cycleEndPru_accumulate (apart : Bool) (s : State) :
    cycleEndPru apart (accumulate s) = cycleEndPru apart s := by
  unfold accumulate
  split <;> rfl

/-- PRU after a good set in OFF, in the default order. -/
theorem arrive_default_pru_of_off (n : Nat) (set : SampleSet) (h : s.rsq.state = .off) :
    (arrive {} n (some set) s).pru =
      if n = 127 then cycleEndPru false (takeSet n (some set) (settleDue s))
      else (takeSet n (some set) (settleDue s)).pru := by
  have h1 : (takeSet n (some set) (settleDue s)).rsq.state = .off :=
    (takeSet_state _ _ _).trans (settleDue_state_of_off h)
  rw [arrive_default]
  generalize takeSet n (some set) (settleDue s) = s1 at h1
  have h2 : (accumulate s1).rsq.state = .off := by simpa using h1
  simp only [Option.isNone_some, Bool.false_eq_true, false_and, if_false, detect_of_off _ h1]
  split
  · rw [later_parts_of_off _ _ _ _ _ (cycleEnd_state_of_off _ _ h2)]
    simp [cycleEnd, cycleEndPru_accumulate]
  · rw [later_parts_of_off _ _ _ _ _ h2]
    simp

end Sys2Proof.Machine
end

section
/-! The lock states at a cycle end, and HOLDOVER_LIMIT (R12 to R17, R86, R127). -/

namespace Sys2Proof.Machine

/-- What RSQ makes of a cycle end outside an event (R15, R111, R112, R127). -/
theorem cycleEnd_of_no_event_spec (apart expiry : Bool) {s : State} (h : eventActive s = false) :
    let lock := (cycleEndPru apart s).lock
    let u := cycleEnd apart expiry s
    u = { s with
      pru := cycleEndPru apart s
      rsq := { s.rsq with cycleCount := s.rsq.cycleCount + 1, state := u.rsq.state } } ∧
    (lock = s.pru.lock → u.rsq.state = s.rsq.state) ∧
    (lock = .acquire → s.pru.lock ≠ .acquire →
      u.rsq.state = if s.rsq.state = .ready then .charge else s.rsq.state) ∧
    (lock ≠ .acquire → lock ≠ s.pru.lock → u.rsq.state =
      if s.rsq.state = .charge ∧ s.settings.linkReady ≤ s.spt.lastGood.link ∧ lock = .locked ∧ onLine s = true
      then .ready else s.rsq.state) := by
  intro lock u
  have hu : u = countCycleEnd (handLock s.pru.lock { s with pru := cycleEndPru apart s }) :=
    cycleEnd_of_no_event apart expiry h
  have hstate : u.rsq.state = (handLock s.pru.lock { s with pru := cycleEndPru apart s }).rsq.state := by
    rw [hu]
    rfl
  refine ⟨?_, fun hl => ?_, fun hl hne => ?_, fun hl hne => ?_⟩
  · rw [hstate, hu, (handLock_eq _ _).1]
    rfl
  · rw [hstate, handLock, if_pos hl]
  · rw [hstate, handLock, if_neg (fun e => hne (e.symm.trans hl)), lockHanded_of_acquire hl]
  · rw [hstate, handLock, if_neg hne, lockHanded_of_not_acquire hl]
    rfl

/-- What the cycle end of an active event leaves (R14, R86, R119, R127; log 5). -/
theorem cycleEnd_of_event_spec (apart expiry : Bool) {s : State} (h : eventActive s = true) :
    let n := satInc s.evc.cycles
    let reached := s.rsq.state = .inject ∧ ∃ limit, s.evc.limit = some limit ∧ limit ≤ n.toNat
    let counted : State := { s with
      pru := { s.pru with dc := 0, ref := { s.pru.ref with age := satInc s.pru.ref.age } }
      evc := { s.evc with cycles := n }
      rsq := { s.rsq with cycleCount := s.rsq.cycleCount + 1 } }
    let u := cycleEnd apart expiry s
    (¬ reached → u = counted) ∧
    (reached → expiry = false → u = { counted with
      rsq := { counted.rsq with state := .release, endCause := .duration, rampDone := false }
      inc := { s.inc with rampCount := 0 } }) ∧
    (reached → expiry = true → u = { counted with evc := { counted.evc with expiryDue := true } }) := by
  intro n reached counted u
  let frozen : State := { s with
    pru := { s.pru with dc := 0, ref := { s.pru.ref with age := satInc s.pru.ref.age } }
    evc := { s.evc with cycles := n } }
  have hu : u = countCycleEnd (compareLimit expiry frozen) := cycleEnd_of_event apart expiry h
  have hf : reached ↔ LimitReached frozen := Iff.rfl
  rw [hu, hf]
  refine ⟨fun hr => ?_, fun hr he => ?_, fun hr he => ?_⟩
  · rw [compareLimit_of_not_reached expiry hr]
    rfl
  · rw [compareLimit_of_reached expiry hr, he, if_neg (by decide), exitInject_of_inject _ hr.1]
    rfl
  · rw [compareLimit_of_reached expiry hr, he, if_pos rfl]
    rfl

/-- Settles O18: the rows of R12, the stored cycle, the two kinds of cycle end, and the timed step. -/
theorem holdoverLimitEntersAcquire : Obligations.HoldoverLimitEntersAcquire := by
  unfold Obligations.HoldoverLimitEntersAcquire
  refine ⟨?limit, ?nothing, fun k hk => ⟨arrivalOrder_apart_last hk, count_arrivalOrder k .cycleEnd⟩, ?frozen, ?rows,
    fun apart expiry s h => cycleEnd_of_no_event_spec apart expiry h, ?event, ?arrival, onLine_iff⟩
  case limit =>
    intro s hl hn he
    rw [exec_eq_effect]
    simp only [effect, holdoverLimitReached_of_limit hl hn he]
    rw [lockHanded_of_acquire (by rfl)]
    rfl
  case nothing =>
    intro s h
    rw [exec_eq_effect]
    simp only [effect, holdoverLimitReached_of_not h]
  case frozen =>
    intro apart s h
    simp [cycleEndPru, h]
  case rows =>
    intro apart s h good n count healthy u
    obtain ⟨hlock, hgood, hcount⟩ : u.lock = (evaluateCycle apart s).lock ∧
      u.goodCount = (evaluateCycle apart s).goodCount ∧ u.holdoverCount = (evaluateCycle apart s).holdoverCount :=
      cycleEndPru_fields apart h
    refine ⟨cycleEndPru_frame s apart, ?_, ?_, ?_, (cycleEndPru_ref apart h).1, (cycleEndPru_ref apart h).2⟩ <;>
      rw [hlock, hgood, hcount] <;> intro hl
    · obtain ⟨hg, hc, -, hto, hstay⟩ := evaluateCycle_of_acquire apart hl
      exact ⟨hg, hc, hto, hstay⟩
    · obtain ⟨hg, -, hgood, hbad⟩ := evaluateCycle_of_locked apart hl
      exact ⟨hg, hgood, hbad⟩
    · obtain ⟨hlocked, hentry, hstay⟩ := evaluateCycle_of_holdover apart hl
      refine ⟨fun h16 => ?_, fun h16 hlim => ?_, fun h16 hlim ha => ?_, fun h16 hlim ha => ?_⟩
      · obtain ⟨h1, h2, h3, -⟩ := hlocked h16
        exact ⟨h1, h2, h3⟩
      · obtain ⟨h1, h2, h3, -⟩ := hstay h16 (fun hc => absurd hc.1 (Nat.not_le.mpr hlim))
        exact ⟨h1, h2, h3⟩
      · obtain ⟨h1, h2, h3, -⟩ := hentry h16 ⟨hlim, ha⟩
        exact ⟨h1, h2, h3⟩
      · obtain ⟨h1, h2, h3, -⟩ := hstay h16 (fun hc => by simp [ha] at hc)
        exact ⟨h1, h2, h3⟩
  case event =>
    intro apart expiry s h
    obtain ⟨hnot, hexit, hmark⟩ := cycleEnd_of_event_spec apart expiry h
    exact ⟨toNat_satInc s.evc.cycles, hnot, hexit, hmark⟩
  case arrival =>
    intro t set s o ho ht hp hoff s1
    have hpru := arrive_default_pru_of_off (s := s.moveTo t) o.index (saturatedSet set) (by simpa using hoff)
    refine ⟨_, exec_eq_effect _ s, ?_⟩
    simp only [effect, setArrives_in_time set {} ho ht, hp, if_true, hpru]
    exact ⟨fun h => by rw [if_pos h], fun h => by rw [if_neg h]⟩

end Sys2Proof.Machine
end

section
/-! SUPPORT. The end of a load: the result's source, the void mask, the foreign flags, and the state that the settings
come into force in (R53, R172 to R176). -/

namespace Sys2Proof.Machine

/-! The void mask (R172, R176). -/

/-- The sum of the powers of two that a condition picks below a bound. -/
def bitSum (p : Nat → Bool) (m : Nat) : Nat := ((List.range m).map (fun n => if p n then 2 ^ n else 0)).sum

theorem bitSum_succ (p : Nat → Bool) (m : Nat) : bitSum p (m + 1) = bitSum p m + if p m then 2 ^ m else 0 := by
  simp [bitSum, List.range_succ]

theorem bitSum_lt (p : Nat → Bool) (m : Nat) : bitSum p m < 2 ^ m := by
  induction m with
  | zero => simp [bitSum]
  | succ m ih =>
    rw [bitSum_succ, Nat.pow_succ]
    split <;> omega

/-- Its bits are the condition's values. -/
theorem testBit_bitSum (p : Nat → Bool) {m n : Nat} (h : n < m) : (bitSum p m).testBit n = p n := by
  induction m with
  | zero => omega
  | succ m ih =>
    rw [bitSum_succ]
    have hlt := bitSum_lt p m
    by_cases hn : n = m
    · subst hn
      cases hp : p n with
      | false => simpa [hp] using Nat.testBit_lt_two_pow hlt
      | true => simp [Nat.add_comm, Nat.testBit_two_pow_add_eq, Nat.testBit_lt_two_pow hlt]
    · have hnm : n < m := by omega
      cases hp : p m with
      | false => simpa [hp] using ih hnm
      | true => simpa [hp, Nat.add_comm, Nat.testBit_two_pow_add_gt hnm] using ih hnm

theorem getLsbD_voidMaskOf (es : List TableEntry) {n : Nat} (h : n < 12) :
    (voidMaskOf es).getLsbD n = true ↔ ∃ e, es[n]? = some e ∧ e.hi < e.lo := by
  have hm : voidMaskOf es = BitVec.ofNat 12 (bitSum (fun n => (es[n]?.map isVoid).getD false) 12) := rfl
  rw [hm, BitVec.getLsbD_ofNat, testBit_bitSum _ h]
  cases es[n]? <;> simp [h, isVoid]

/-! The foreign flags (R53). -/

theorem getD_reflag (own : Option Nat) (digest : Half) (peers : List PeerEntry) (j : Nat) :
    (reflag own digest peers).getD j PeerEntry.absent =
      if own = some j then peers.getD j PeerEntry.absent
      else { peers.getD j PeerEntry.absent with
        foreign := foreignTo digest (peers.getD j PeerEntry.absent).slow } := by
  simp only [reflag, List.getD_eq_getElem?_getD, List.getElem?_mapIdx]
  cases peers[j]? with
  | some e => simp
  | none => split <;> rfl

/-! The result of a load (R168, R169, R176). -/

/-- Every load ends with the image or with the defaults. -/
theorem loadImage_source (image : List Byte) :
    (loadImage image).source = .image ∨ (loadImage image).source = .defaults := by
  unfold loadImage
  dsimp only
  split
  · exact .inr rfl
  split
  · exact .inr rfl
  split
  · exact .inr rfl
  split
  · exact .inr rfl
  split
  · exact .inr rfl
  · exact .inl rfl

/-- A load is held to another layout when one is in force that differs (R135; log 32). -/
theorem cflInForce_layoutHeld (r : LoadResult) (old : Option Layout) (c : Cfl) :
    (cflInForce r old c).layoutHeld = true ↔
      r.source = .image ∧ ∃ l, old = some l ∧ l ≠ layoutOf r.settings.layoutCode := by
  cases old with
  | none => simp [cflInForce, layoutAfter]
  | some l =>
    change (r.source == .image && decide (l ≠ layoutOf r.settings.layoutCode)) = true ↔ _
    simp

/-! The coming into force (R174) on a station that is DOWN with its restorer in OFF, as every reset leaves it. -/

/-- SLC leaves DOWN for LISTEN with an own slot, and its timer starts (R39, R40). -/
theorem enterListen_of_down {s : State} (h : s.slc.membership = .down) :
    enterListen s = { s with slc := { s.slc with
      membership := if (ownSlot s).isSome then .listen else .down
      heardFirst := if (ownSlot s).isSome then false else s.slc.heardFirst
      listenEnd := if (ownSlot s).isSome then some (s.now + 960000) else s.slc.listenEnd } } := by
  unfold enterListen
  cases (ownSlot s).isSome with
  | true => simp [h, Config.listenLength]
  | false => simp [← h]

/-- The restorer state after the coming into force, from OFF (R110, R128). -/
def stateInForce (s : State) : RestorerState :=
  if (ownSlot s).isSome = true ∧ s.pins.enable = true then (if faultActive s = true then .lockout else .charge)
  else .off

theorem leaveOff_of_off {s : State} (h : s.rsq.state = .off) (hf : inForce s = true) :
    leaveOff s = { s with rsq := { s.rsq with state := stateInForce s } } := by
  unfold leaveOff stateInForce
  by_cases hc : (ownSlot s).isSome = true ∧ s.pins.enable = true
  · rw [if_pos ⟨h, hf, hc⟩, if_pos hc]
    rfl
  · rw [if_neg (fun hall => hc hall.2.2), if_neg hc, ← h]

theorem comeIntoForce_eq {r : LoadResult} {s : State} (hr : r.source = .image ∨ r.source = .defaults)
    (hdown : s.slc.membership = .down) (hoff : s.rsq.state = .off) :
    comeIntoForce r s = { s with
      pru := { s.pru with
        lock := .acquire, goodCount := 0, holdoverCount := 0, fEst := 1000 * r.settings.fNom
        ref := { s.pru.ref with valid := false } }
      evc := { s.evc with table := r.table, unused := r.unused }
      rsq := { s.rsq with state := stateInForce s }
      slc := { s.slc with
        membership := if (ownSlot s).isSome then .listen else .down
        heardFirst := if (ownSlot s).isSome then false else s.slc.heardFirst
        listenEnd := if (ownSlot s).isSome then some (s.now + 960000) else s.slc.listenEnd
        peers := reflag (ownSlot s) (digestOf r.settings) s.slc.peers }
      cst := { s.cst with layout := some (layoutAfter s.cst.layout r.settings) }
      cfl := cflInForce r s.cst.layout s.cfl } := by
  have hsrc : (r.source != .loading) = true := by rcases hr with h | h <;> simp [h]
  unfold comeIntoForce
  dsimp only
  rw [enterListen_of_down (by exact hdown), leaveOff_of_off (by exact hoff) (by exact hsrc)]
  rfl

end Sys2Proof.Machine
end

section
/-! Both ends of a load (R13, R39, R40, R53, R110, R128, R135, R172 to R176). -/

namespace Sys2Proof.Machine

/-- The two commands that end a load, with what each puts in force. -/
theorem load_end {c : Instr} {t : Nat} {r : LoadResult}
    (h : (c = .memoryNoAnswer t ∧ r = defaultsResult .noAnswer) ∨
      (∃ image, c = .loadCompletion t image ∧ r = loadImage image)) (s : State) :
    exec c s = .next (endLoad r (s.moveTo t)) ∧ (r.source = .image ∨ r.source = .defaults) := by
  rcases h with ⟨rfl, rfl⟩ | ⟨image, rfl, rfl⟩
  · exact ⟨rfl, .inr rfl⟩
  · exact ⟨rfl, loadImage_source image⟩

/-- Settles O7: the state that the settings come into force in, then its peer entries, its void mask and its layout. -/
theorem settingsComeIntoForce : Obligations.SettingsComeIntoForce := by
  unfold Obligations.SettingsComeIntoForce
  refine ⟨fun c => rfl, ?_⟩
  intro c t r s hc
  obtain ⟨hexec, hr⟩ := load_end hc s
  refine ⟨fun hl => ?_, fun hl hdown hoff => ?_⟩
  · rw [hexec]
    simp only [endLoad, moveTo_frame, hl]
    rfl
  · have hu : endLoad r (s.moveTo t) = comeIntoForce r (s.moveTo t) := by simp [endLoad, hl]
    rw [hexec, hu, comeIntoForce_eq hr (by simpa using hdown) (by simpa using hoff)]
    refine ⟨_, rfl, rfl, fun j hj => ?_, fun j hj => ?_, rfl, fun n hn => getLsbD_voidMaskOf r.table hn,
      cflInForce_layoutHeld r s.cst.layout s.cfl⟩
    · exact (getD_reflag (ownSlot s) _ s.slc.peers j).trans (if_neg hj)
    · exact (getD_reflag (ownSlot s) (digestOf r.settings) s.slc.peers j).trans (if_pos hj)

end Sys2Proof.Machine
end

section
/-! SUPPORT. SDU's measurement and detectors: the floored square root, the windows, and the two detectors of a phase
(R20 to R25). -/

namespace Sys2Proof.Machine

/-! The floored square root, bit by bit. -/

/-- A root that is right to within `2 ^ k` is made exact by the bits from `k - 1` down. -/
theorem isqrtFrom_spec (n k r : Nat) (lo : r * r ≤ n) (hi : n < (r + 2 ^ k) * (r + 2 ^ k)) :
    isqrtFrom n k r * isqrtFrom n k r ≤ n ∧ n < (isqrtFrom n k r + 1) * (isqrtFrom n k r + 1) := by
  induction k generalizing r with
  | zero => exact ⟨lo, hi⟩
  | succ k ih =>
    have hk : 2 ^ (k + 1) = 2 ^ k + 2 ^ k := by omega
    unfold isqrtFrom
    split
    · rename_i taken
      exact ih _ taken (by rwa [hk, ← Nat.add_assoc] at hi)
    · rename_i left
      exact ih r lo (Nat.lt_of_not_le left)

/-- The integer square root is floored (00 section 4.2). -/
theorem isqrt_spec (n : Nat) : isqrt n * isqrt n ≤ n ∧ n < (isqrt n + 1) * (isqrt n + 1) := by
  have hn : n < 2 ^ (n.log2 + 1) := Nat.lt_log2_self
  refine isqrtFrom_spec n (n.log2 + 1) 0 (Nat.zero_le n) ?_
  calc n < 2 ^ (n.log2 + 1) := hn
    _ ≤ (0 + 2 ^ (n.log2 + 1)) * (0 + 2 ^ (n.log2 + 1)) := by
      rw [Nat.zero_add]
      exact Nat.le_mul_self _

/-! The measurement of a set (R20, R21, R25). -/

theorem get_sumSquares (h : List (Phases Int)) (p : Phase) :
    (sumSquares h).get p = (h.map (fun x => (x.get p).natAbs * (x.get p).natAbs)).sum := by
  cases p <;> rfl

/-- The half-cycle window is the newer half of the cycle's (R20). -/
theorem measureSet_sum64 (k : Nat) (v : Phases Int) (s : State) :
    (measureSet k v s).sdu.sum64 = sumSquares ((v :: s.sdu.history).take 64) :=
  congrArg sumSquares (List.take_take ..)

/-- The detectors of a phase move by what the measurement of the phase found (R22, R23). -/
theorem measureSet_detectors (k : Nat) (v : Phases Int) (s : State) (p : Phase) :
    (measureSet k v s).sdu.detectors.get p =
      detectorAfter s.settings s.pru.ref.valid ((s.pru.ref.samples.getD k (Phases.same 0)).get p) (v.get p)
        ((measureSet k v s).sdu.residual.get p) (s.sdu.detectors.get p) := by
  cases p <;> rfl

/-! The run counts and the flags of a phase (R22, R23). -/

@[simp] theorem runCount_true (n : Half) : runCount true n = satInc n := rfl

@[simp] theorem runCount_false (n : Half) : runCount false n = 0 := rfl

/-- A clear flag is set by the set test alone, a set one cleared by the clear test alone. -/
theorem flagAfter_spec (flag : Bool) (set clear : Prop) [Decidable set] [Decidable clear] :
    (flag = false → (flagAfter flag (decide set) (decide clear) = true ↔ set)) ∧
    (flag = true → (flagAfter flag (decide set) (decide clear) = false ↔ clear)) := by
  cases flag <;> simp [flagAfter]

/-- The RMS detector: its two runs by the residual's range, its flag by the persistence counts (R22). -/
theorem detectorAfter_rms (c : Config.Settings) (valid : Bool) (ref v : Int) (r : Nat) (d : Detector)
    (hc : c.sagThreshold < c.recoverThreshold) :
    let u := detectorAfter c valid ref v r d
    (r < c.sagThreshold → u.belowRun = satInc d.belowRun ∧ u.aboveRun = 0) ∧
    (c.sagThreshold ≤ r → r < c.recoverThreshold → u.belowRun = 0 ∧ u.aboveRun = 0) ∧
    (c.recoverThreshold ≤ r → u.belowRun = 0 ∧ u.aboveRun = satInc d.aboveRun) ∧
    (d.rmsFlag = false → (u.rmsFlag = true ↔ c.rmsPersistence ≤ u.belowRun.toNat)) ∧
    (d.rmsFlag = true → (u.rmsFlag = false ↔ c.recoverPersistence ≤ u.aboveRun.toNat)) := by
  intro u
  have below : u.belowRun = runCount (decide (r < c.sagThreshold)) d.belowRun := rfl
  have above : u.aboveRun = runCount (decide (c.recoverThreshold ≤ r)) d.aboveRun := rfl
  refine ⟨fun hr => ?_, fun hlo hhi => ?_, fun hr => ?_, flagAfter_spec d.rmsFlag _ _⟩
  · have hr' : ¬ c.recoverThreshold ≤ r := by omega
    simp [below, above, hr, hr']
  · have hlo' : ¬ r < c.sagThreshold := by omega
    have hhi' : ¬ c.recoverThreshold ≤ r := by omega
    simp [below, above, hlo', hhi']
  · have hr' : ¬ r < c.sagThreshold := by omega
    simp [below, above, hr, hr']

/-- Without a valid reference the departure detector stands clear, its runs at 0 (R23). -/
theorem detectorAfter_inst_of_invalid (c : Config.Settings) (ref v : Int) (r : Nat) (d : Detector) :
    let u := detectorAfter c false ref v r d
    u.instFlag = false ∧ u.overRun = 0 ∧ u.withinRun = 0 := ⟨rfl, rfl, rfl⟩

/-- With a valid reference the departure detector's runs go by the departure from the stored sample, its flag by the persistence counts (R23). -/
theorem detectorAfter_inst_of_valid (c : Config.Settings) (ref v : Int) (r : Nat) (d : Detector) :
    let u := detectorAfter c true ref v r d
    (c.instThreshold < (ref - v).natAbs → u.overRun = satInc d.overRun ∧ u.withinRun = 0) ∧
    ((ref - v).natAbs ≤ c.instThreshold → u.withinRun = satInc d.withinRun ∧ u.overRun = 0) ∧
    (d.instFlag = false → (u.instFlag = true ↔ c.instPersistence ≤ u.overRun.toNat)) ∧
    (d.instFlag = true → (u.instFlag = false ↔ c.recoverPersistence ≤ u.withinRun.toNat)) := by
  intro u
  have beyond : u.overRun = runCount (decide (c.instThreshold < (ref - v).natAbs)) d.overRun := rfl
  have within : u.withinRun = runCount (!decide (c.instThreshold < (ref - v).natAbs)) d.withinRun := rfl
  refine ⟨fun far => ?_, fun near => ?_, flagAfter_spec d.instFlag _ _⟩
  · simp [beyond, within, far]
  · simp [beyond, within, Nat.not_lt.mpr near]

end Sys2Proof.Machine
end

section
/-! The measurement of an arrival, and the two detectors of a phase (R20 to R23, R25). -/

namespace Sys2Proof.Machine

/-- Settles O16: the floored root, the windows of a measured set, and the two detectors of a phase. -/
theorem detectionOfAnArrival : Obligations.DetectionOfAnArrival := by
  unfold Obligations.DetectionOfAnArrival
  refine ⟨isqrt_spec, ?measured, ?detectors⟩
  case measured =>
    intro k v s p u
    have sum64 : u.sdu.sum64.get p = (sumSquares ((v :: s.sdu.history).take 64)).get p :=
      congrArg (Phases.get · p) (measureSet_sum64 k v s)
    refine ⟨rfl, rfl, sum64.trans (get_sumSquares _ p), get_sumSquares _ p, ?_, ?_, measureSet_detectors k v s p, ?_,
      rfl, rfl, rfl⟩
    · exact get_map halfCycleRms u.sdu.sum64 p
    · exact get_map (residualOf s.settings.vNom) u.sdu.rms p
    · exact get_map (fun d => d.rmsFlag || d.instFlag) u.sdu.detectors p
  case detectors =>
    intro c valid ref v r d hc u
    obtain ⟨low, between, high, rmsSets, rmsClears⟩ := detectorAfter_rms c valid ref v r d hc
    refine ⟨low, between, high, rmsSets, rmsClears, ?_⟩
    cases valid with
    | false =>
      refine ⟨fun _ => detectorAfter_inst_of_invalid c ref v r d, ?_⟩
      simp
    | true =>
      obtain ⟨far, near, sets, clears⟩ := detectorAfter_inst_of_valid c ref v r d
      exact ⟨by simp, fun _ => far, fun _ => near, fun _ => sets, fun _ => clears⟩

end Sys2Proof.Machine
end

section
/-! SUPPORT. What an onset does at every block: what makes an arrival one, the state that it leaves, the action applied
where k is 0, and the rest of the onset's own arrival (R26 to R28, R74, R87, R89, R113 to R116). -/

namespace Sys2Proof.Machine

variable {s : State}

/-! The tests of an arrival (R18, R26, R27). -/

theorem any_eq_false_iff (x : Phases Bool) : x.any = false ↔ ∀ p, x.get p = false := by
  simpa using not_congr (any_iff x)

@[simp] theorem get_minus (x y : Phases Bool) (p : Phase) : (x.minus y).get p = (x.get p && !y.get p) := by
  cases p <;> rfl

theorem onsetHere_iff (s : State) : onsetHere s = true ↔
    s.rsq.state = .ready ∧ (∃ p, s.sdu.flags.get p = true) ∧ ∀ p, s.sdu.prevFlags.get p = false := by
  rw [← any_iff, ← any_eq_false_iff]
  simp [onsetHere, and_assoc]

theorem resagHere_iff (s : State) : resagHere s = true ↔
    s.rsq.state = .release ∧ ∃ p, s.sdu.flags.get p = true ∧ s.sdu.prevFlags.get p = false := by
  have newly := any_iff (s.sdu.flags.minus s.sdu.prevFlags)
  simp only [get_minus, Bool.and_eq_true, Bool.not_eq_true'] at newly
  simp [resagHere, newly]

theorem fresh_iff (s : State) :
    fresh s = true ↔ s.pru.ref.valid = true ∧ s.pru.ref.age.toNat ≤ s.settings.refAgeLimit := by
  simp [fresh]

theorem detect_of_onset (k : CompletionTaking) (h : onsetHere s = true) : detect k s = takeOnset k s := by
  simp [detect, h]

theorem detect_of_resag (k : CompletionTaking) (h : resagHere s = true) :
    detect k s = takeResag (accumulate { s with sdu := { s.sdu with recovery := 0 } }) := by
  have released : s.rsq.state = .release := ((resagHere_iff s).mp h).1
  have noOnset : onsetHere s = false := by simp [onsetHere, released]
  simp [detect, noOnset, h]

/-! An onset before it is taken or refused: its record opened at SDU and INC, and its number (R28, R90, R115). -/

/-- `fresh` reads PRU and CFL alone. -/
theorem fresh_congr {s u : State} (pru : u.pru = s.pru) (cfl : u.cfl = s.cfl) : fresh u = fresh s := by
  simp [fresh, State.settings, pru, cfl]

/-- The onset at every block that it reaches whatever the budget. -/
def onsetNumbered (s : State) : State := openRecord (numberOnset (openOnsetRecord (takeClassFields s)))

theorem onsetNumbered_eq (s : State) :
    onsetNumbered s = { takeClassFields s with
      rsq := { s.rsq with
        eventCounter := nextEvent s.rsq.eventCounter, event := nextEvent s.rsq.eventCounter, onsetArrival := true }
      inc := { s.inc with
        method := if fresh s then .presag else .inphase, limited := false, energy := 0, lowest := 32768 }
      sdu := { s.sdu with
        record := { isOpen := true, onsetMask := s.sdu.flags, sinceMask := s.sdu.flags, rMin := s.sdu.residual }
        recovery := 0 } } := by
  have same : fresh (numberOnset (openOnsetRecord (takeClassFields s))) = fresh s := fresh_congr (by simp) (by simp)
  unfold onsetNumbered openRecord
  rw [same]
  rfl

/-! An onset taken into INJECT (R74, R87, R113). -/

/-- EVC's window opened, before a classification at k = 0 (R74). -/
def windowOpened (s : State) : State :=
  { s with evc := { s.evc with
      eventClass := .pending, window := true, windowCount := 0, coincidence := 0, matched := none, override := none
      limit := none, cycles := 0, withdrawn := false, stale := false, expiryDue := false } }

theorem openWindow_eq (s : State) :
    openWindow s = if s.settings.k = 0 then classify false false .grid (windowOpened s) else windowOpened s := rfl

/-- The onset at every block but CST, whose opening reads it, and without the classification of k = 0. -/
def injectingAt (s : State) : State :=
  windowOpened (startInjection (enterInject (onsetNumbered s)))

/-- What the blocks hold of it: INJECT with the bypasses open, the event's values at INC, its record and its window
(R28, R67, R68, R74, R90, R99, R101, R113, R115, R116). -/
theorem injectingAt_eq (s : State) :
    injectingAt s = { takeClassFields s with
      rsq := { s.rsq with
        state := .inject, bypassOpen := Phases.same true, bridge := true, waits := Phases.same none
        rampDone := false, linkLow := 0, overRun := 0, endCause := .none, resag := false
        eventCounter := nextEvent s.rsq.eventCounter, event := nextEvent s.rsq.eventCounter, onsetArrival := true }
      inc := { s.inc with
        method := if fresh s then .presag else .inphase
        limited := false, energy := 0, lowest := 32768, ratio := 32768, ramp := 32768, rampCount := 0, pDem := 0
        nDem := 0, port := Phases.same 0 }
      sdu := { s.sdu with
        record := { isOpen := true, onsetMask := s.sdu.flags, sinceMask := s.sdu.flags, rMin := s.sdu.residual }
        recovery := 0 }
      evc := { s.evc with
        eventClass := .pending, window := true, windowCount := 0, coincidence := 0, matched := none, override := none
        limit := none, cycles := 0, withdrawn := false, stale := false, expiryDue := false } } := by
  unfold injectingAt
  rw [onsetNumbered_eq]
  rfl

/-- An onset met with a budget: CST opens on what the other blocks hold of the onset, and k = 0 classifies at once. -/
theorem takeOnset_of_budget (k : CompletionTaking) (h : 0 < s.esa.budget) :
    takeOnset k s =
      if s.settings.k = 0 then classify false false .grid (captureOnset (injectingAt s))
      else captureOnset (injectingAt s) := by
  unfold takeOnset
  dsimp only
  rw [if_pos h, openWindow_eq]
  rfl

/-! The action applied at the onset where k is 0: no cycle end has been counted yet, so no limit is reached (R86, R87). -/

theorem putLimit_of_no_cycles (n : Nat) (apart : Bool) (h : s.evc.cycles = 0) :
    putLimit n apart s = { s with evc := { s.evc with limit := if n = 0 then none else some n } } := by
  unfold putLimit
  split
  · rfl
  · rename_i hn
    apply compareLimit_of_not_reached
    rintro ⟨-, limit, hl, hle⟩
    obtain rfl := Option.some.inj hl
    exact hn (by simpa [h] using hle)

/-- The settled method moves the stale flag alone at EVC (R82). -/
theorem settleMethod_evc (m : TableMethod) (s : State) :
    (settleMethod m s).evc = { s.evc with stale := (settleMethod m s).evc.stale } := by
  unfold settleMethod
  (repeat' split) <;> rfl

/-- An exit from INJECT at RSQ reads RSQ alone. -/
theorem exitInject_rsq_congr (c : EndCause) {s u : State} (h : u.rsq = s.rsq) :
    (exitInject c u).rsq = (exitInject c s).rsq := by
  unfold exitInject
  rw [h]
  split <;> simp [h]

/-- What an action leaves of the restorer, and of class, window and mark at EVC, before any cycle end has been counted:
its withdrawal alone shows. -/
theorem applyAction_of_no_cycles (e : Option TableEntry) (h : s.evc.cycles = 0) :
    let u := applyAction false false e s
    let w := withdraw (actionMethod s e) s
    u.rsq = w.rsq ∧ u.evc.eventClass = w.evc.eventClass ∧ u.evc.window = w.evc.window ∧
      u.evc.withdrawn = w.evc.withdrawn := by
  unfold applyAction
  simp only [Bool.false_eq_true, if_false]
  generalize actionMethod s e = m
  generalize (e.map TableEntry.limit).getD 0 = n
  generalize e.bind TableEntry.override = o
  have settled : (putOverride o (settleMethod m s)).evc =
      { s.evc with stale := (settleMethod m s).evc.stale, override := o } :=
    congrArg (fun v : Evc => { v with override := o }) (settleMethod_evc m s)
  have stands : (putOverride o (settleMethod m s)).rsq = s.rsq := by simp
  generalize putOverride o (settleMethod m s) = s1 at settled stands
  have acted : (withdraw m s1).rsq = (withdraw m s).rsq ∧
      (withdraw m s1).evc = { (withdraw m s).evc with stale := s1.evc.stale, override := o } := by
    cases m with
    | withdraw => exact ⟨exitInject_rsq_congr .withdrawn stands, by simp [withdraw, settled]⟩
    | presag => exact ⟨stands, by simp [withdraw, settled]⟩
    | inphase => exact ⟨stands, by simp [withdraw, settled]⟩
  obtain ⟨rsq, evc⟩ := acted
  have uncounted : (withdraw m s1).evc.cycles = 0 := by
    rw [evc]
    cases m <;> simpa [withdraw] using h
  rw [putLimit_of_no_cycles n false uncounted]
  split <;> simp [rsq, evc]

/-- A classification of an injecting restorer before any cycle end has been counted: the event goes on unless the action
withdraws, which sets the mark and takes it to RELEASE; number, bridge and bypasses stand either way. -/
theorem classify_of_no_cycles (cls : EventClass) (hs : s.rsq.state = .inject) (hc : s.evc.cycles = 0)
    (hw : s.evc.withdrawn = false) :
    let u := classify false false cls s
    u.evc.eventClass = cls ∧ u.evc.window = false ∧ u.rsq.eventCounter = s.rsq.eventCounter ∧
    u.rsq.bridge = s.rsq.bridge ∧ u.rsq.bypassOpen = s.rsq.bypassOpen ∧
    (u.evc.withdrawn = false → u.rsq.state = .inject) ∧ (u.evc.withdrawn = true → u.rsq.state = .release) := by
  unfold classify
  dsimp only
  generalize hy : ({ s with evc := { s.evc with
    eventClass := cls, window := false, matched := (searchTable cls s).map Prod.fst } } : State) = y
  obtain ⟨rsq, eventClass, window, withdrawn⟩ :=
    applyAction_of_no_cycles (s := y) ((searchTable cls s).map Prod.snd) (by rw [← hy]; exact hc)
  rw [rsq, eventClass, window, withdrawn]
  subst hy
  cases actionMethod _ ((searchTable cls s).map Prod.snd) with
  | withdraw =>
    simp only [withdraw]
    rw [exitInject_of_inject _ (by exact hs)]
    simp
  | presag => simp [withdraw, hs, hw]
  | inphase => simp [withdraw, hs, hw]

/-! The rest of the onset's arrival: INC, the link-low and overcurrent runs and the service test pass it over
(R89, R113, R118, R126), and no limit is in force. -/

/-- The parts that follow the cycle end in the default order, on the arrival that has entered INJECT. -/
theorem later_parts_at_onset (k : CompletionTaking) (b : Bool) (n : Nat) (set : SampleSet) (x : Phases Int)
    (hs : s.rsq.state = .inject) (ho : s.rsq.onsetArrival = true) :
    closeWaits k b x (overcurrentTest k (linkRunTest (serviceTest (injectSet n set s)))) = s := by
  have inc : injectSet n set s = s := by simp [injectSet, handles, ho]
  have service : serviceTest s = s := by simp [serviceTest, readyTest, hs]
  have linkRun : linkRunTest s = s := by simp [linkRunTest, ho]
  have overcurrent : overcurrentTest k s = s := by simp [overcurrentTest, ho]
  simp [inc, service, linkRun, overcurrent, closeWaits, hs]

/-- A cycle end on the onset's arrival, with no limit in force, is counted and nothing else at RSQ, INC and EVC. -/
theorem cycleEnd_of_no_limit (apart expiry : Bool) (hs : s.rsq.state = .inject) (hl : s.evc.limit = none) :
    cycleEnd apart expiry s = { s with
      pru := { s.pru with dc := 0, ref := { s.pru.ref with age := satInc s.pru.ref.age } }
      evc := { s.evc with cycles := satInc s.evc.cycles }
      rsq := { s.rsq with cycleCount := s.rsq.cycleCount + 1 } } := by
  refine (cycleEnd_of_event_spec apart expiry ((eventActive_iff s).mpr (.inl hs))).1 ?_
  rintro ⟨-, limit, h, -⟩
  rw [hl] at h
  cases h

/-- A good set that brings an onset met with a budget, in the default order: what its arrival leaves of the onset. -/
theorem arrive_default_of_onset (n : Nat) (set : SampleSet)
    (h : onsetHere (takeSet n (some set) (settleDue s)) = true) (hb : 0 < s.esa.budget) (hk : s.settings.k ≠ 0) :
    let v := injectingAt (takeSet n (some set) (settleDue s))
    let u := arrive {} n (some set) s
    u.inc = v.inc ∧ u.evc.window = v.evc.window ∧
    u.rsq = { v.rsq with cycleCount := if n = 127 then v.rsq.cycleCount + 1 else v.rsq.cycleCount } := by
  intro v u
  have entered : detect .afterNo (takeSet n (some set) (settleDue s)) = captureOnset v := by
    rw [detect_of_onset _ h, takeOnset_of_budget _ (by simpa using hb), if_neg (by simpa [State.settings] using hk)]
  have hu : u = _ := arrive_default s n (some set)
  simp only [Option.isNone_some, Bool.false_eq_true, false_and, if_false, entered] at hu
  rw [hu]
  split
  · rw [cycleEnd_of_no_limit _ _ rfl rfl, later_parts_at_onset _ _ _ _ _ rfl rfl]
    simp
  · rw [later_parts_at_onset _ _ _ _ _ rfl rfl]
    simp

/-! Event numbers (R115): no work that comes before an arrival's detection counts one. -/

theorem exitInject_eventCounter (c : EndCause) (s : State) :
    (exitInject c s).rsq.eventCounter = s.rsq.eventCounter := by
  unfold exitInject
  split <;> rfl

theorem holdoverLimitReached_eventCounter (s : State) :
    (holdoverLimitReached s).rsq.eventCounter = s.rsq.eventCounter := by
  unfold holdoverLimitReached lockHanded readyTest
  (repeat' split) <;> rfl

theorem closeTimedOut_eventCounter (k : CompletionTaking) (m : Phases Bool) (s : State) :
    (closeTimedOut k m s).rsq.eventCounter = s.rsq.eventCounter := by
  unfold closeTimedOut
  split
  · rw [closeBypasses_eq]
    split <;> simp [endEvent, closeEvent]
  · rfl

theorem expireDuration_eventCounter (s : State) : (expireDuration s).rsq.eventCounter = s.rsq.eventCounter := by
  unfold expireDuration
  split
  · exact exitInject_eventCounter _ _
  · rfl

theorem settleDue_eventCounter (s : State) : (settleDue s).rsq.eventCounter = s.rsq.eventCounter := by
  simp [settleDue, expireDuration_eventCounter, closeTimedOut_eventCounter, holdoverLimitReached_eventCounter]

theorem takeSet_eventCounter (n : Nat) (g : Option SampleSet) (s : State) :
    (takeSet n g s).rsq.eventCounter = s.rsq.eventCounter := by
  unfold takeSet beginWaits
  dsimp only
  split <;> simp

theorem nextEvent_toNat {n : Word} (h : n ≠ 0xFFFFFFFF#32) : (nextEvent n).toNat = n.toNat + 1 := by
  have stands : n ≠ BitVec.allOnes 32 := h
  unfold nextEvent
  rw [if_neg stands]
  bv_omega

end Sys2Proof.Machine
end

section
/-! An onset met with a budget (R28, R67, R68, R74, R87, R90, R99, R101, R113, R115, R116). -/

namespace Sys2Proof.Machine

/-- Settles O23: the onset at every block is `injectingAt`, with CST's opening on it; k = 0 classifies on that; and the
rest of its arrival leaves it. -/
theorem onsetTaken : Obligations.OnsetTaken := by
  unfold Obligations.OnsetTaken
  refine ⟨?taken, ?grid, ?arrival, fun n h => nextEvent_toNat h, rfl⟩
  case taken =>
    intro k s h hb u injecting opened found
    have hi : injectingAt s = injecting := injectingAt_eq s
    have hu : u = if s.settings.k = 0 then classify false false .grid opened else opened := by
      rw [show opened = captureOnset (injectingAt s) by rw [hi]]
      exact (detect_of_onset k h).trans (takeOnset_of_budget k hb)
    refine ⟨fun hk => hu.trans (if_neg hk), rfl, rfl, fun hk => hu.trans (if_pos hk)⟩
  case grid =>
    intro k s h hb hk u
    have hu : u = classify false false .grid (captureOnset (injectingAt s)) :=
      (detect_of_onset k h).trans ((takeOnset_of_budget k hb).trans (if_pos hk))
    rw [hu]
    exact classify_of_no_cycles .grid rfl rfl rfl
  case arrival =>
    intro t set s o ho ht hp s1 h hb hk
    refine ⟨_, exec_eq_effect _ s, ?_⟩
    simp only [effect, setArrives_in_time set {} ho ht, hp, if_true]
    obtain ⟨inc, window, rsq⟩ := arrive_default_of_onset o.index (saturatedSet set) h hb hk
    have number : s1.rsq.eventCounter = s.rsq.eventCounter := by
      simp [s1, takeSet_eventCounter, settleDue_eventCounter]
    rw [inc, window, rsq, ← number]
    exact ⟨rfl, rfl, rfl, rfl, rfl, rfl⟩

end Sys2Proof.Machine
end

section
/-! SUPPORT. A refused onset and a re-sag: the event's end where nothing but its record was opened (R74, R90, R114), and
RSQ's answer to a re-sag (R118, R125). -/

namespace Sys2Proof.Machine

variable {s : State}

/-! A refused onset is numbered, and ends at once. -/

/-- The event's end at every block but EVC and CST, once RSQ has made its change (R124). -/
theorem handEnd_eq (k : CompletionTaking) (s : State) :
    handEnd k s =
      { s with
        inc := { s.inc with port := Phases.same 0 }
        sdu := { s.sdu with record := { s.sdu.record with isOpen := false } }
        pru := { s.pru with cycle := { s.pru.cycle with eventEnded := true } }
        evc := (handEnd k s).evc
        cst := (handEnd k s).cst } := by
  apply state_ext <;> simp [handEnd, quietBlocks]

/-- With its window closed EVC classifies nothing at the event's end (R77, R84). -/
theorem handEnd_evc_of_closed (k : CompletionTaking) (h : s.evc.window = false) :
    (handEnd k s).evc = { s.evc with override := none, expiryDue := false } := by
  simp [handEnd, classifyAtEnd, h]

/-- The refused onset at every block, before the end that is handed to them. -/
def refusedAt (s : State) : State :=
  captureOnset (refusedAtClassifier (refuseOnset (onsetNumbered s)))

/-- What it holds of the onset at RSQ, INC, SDU and EVC (R28, R74, R90, R114, R115). -/
theorem refusedAt_eq (s : State) :
    refusedAt s = { s with
      rsq := { s.rsq with
        eventCounter := nextEvent s.rsq.eventCounter, event := nextEvent s.rsq.eventCounter, onsetArrival := true
        endCause := .exhausted, lastEndCause := .exhausted, resag := false }
      inc := { s.inc with
        method := if fresh s then .presag else .inphase, limited := false, energy := 0, lowest := 32768 }
      sdu := { s.sdu with
        record := { isOpen := true, onsetMask := s.sdu.flags, sinceMask := s.sdu.flags, rMin := s.sdu.residual }
        recovery := 0 }
      evc := { s.evc with
        eventClass := .pending, window := false, coincidence := 0, matched := none, cycles := 0, stale := false }
      cst := (refusedAt s).cst } := by
  unfold refusedAt
  rw [onsetNumbered_eq]
  rfl

theorem takeOnset_of_no_budget (k : CompletionTaking) (h : s.esa.budget = 0) :
    takeOnset k s = handEnd k (refusedAt s) := by
  unfold takeOnset
  dsimp only
  rw [if_neg (by simp [h])]
  rfl

/-! A re-sag. -/

theorem takeResag_of_taken (h : s.evc.withdrawn = false) (he : s.pins.enable = true) :
    takeResag s = returnToInject s := by
  simp [takeResag, h, he]

theorem takeResag_of_refused (h : s.evc.withdrawn = true ∨ s.pins.enable = false) :
    takeResag s = { s with rsq := { s.rsq with linkLow := 0 } } := by
  unfold takeResag
  rw [if_neg]
  rintro ⟨hw, he⟩
  rcases h with h | h
  · simp [hw] at h
  · simp [he] at h

/-- Taken or refused, a re-sag leaves the event's number, cause and bridge, and the ratio and method at INC. -/
theorem takeResag_keeps_event (s : State) :
    (takeResag s).rsq.linkLow = 0 ∧ (takeResag s).rsq.event = s.rsq.event ∧
    (takeResag s).rsq.endCause = s.rsq.endCause ∧ (takeResag s).rsq.eventCounter = s.rsq.eventCounter ∧
    (takeResag s).rsq.overRun = s.rsq.overRun ∧ (takeResag s).rsq.bridge = s.rsq.bridge ∧
    (takeResag s).inc.ratio = s.inc.ratio ∧ (takeResag s).inc.method = s.inc.method := by
  unfold takeResag
  split <;> exact ⟨rfl, rfl, rfl, rfl, rfl, rfl, rfl, rfl⟩

/-- The onset record takes the arrival while it is open (R28). -/
theorem accumulate_sdu (s : State) :
    (accumulate s).sdu = { s.sdu with
      record := if s.sdu.record.isOpen = true then
          { s.sdu.record with
            sinceMask := s.sdu.record.sinceMask.join s.sdu.flags
            rMin := Phases.map2 min s.sdu.record.rMin s.sdu.residual }
        else s.sdu.record } := by
  unfold accumulate
  split <;> rfl

end Sys2Proof.Machine
end

section
/-! An onset met with a budget of 0, and a re-sag (R18, R26 to R28, R74, R90, R99, R114, R115, R118, R125). -/

namespace Sys2Proof.Machine

/-- Settles O24: the refused onset at every block, then an event's end with the window closed. -/
theorem onsetRefused : Obligations.OnsetRefused := by
  unfold Obligations.OnsetRefused
  refine ⟨onsetHere_iff, fresh_iff, ?_⟩
  intro k s h hb u
  have hu : u = handEnd k (refusedAt s) := (detect_of_onset k h).trans (takeOnset_of_no_budget k hb)
  have evc : u.evc = { (refusedAt s).evc with override := none, expiryDue := false } := by
    rw [hu]
    exact handEnd_evc_of_closed k rfl
  have rsq : u.rsq = (refusedAt s).rsq := by simp [hu]
  have inc : u.inc = { (refusedAt s).inc with port := Phases.same 0 } := by rw [hu, handEnd_eq]
  have sdu : u.sdu.record = { (refusedAt s).sdu.record with isOpen := false } := by rw [hu, handEnd_eq]
  obtain ⟨pins, -, spt, esa, slc, rqh, cfl, -⟩ := detect_frame s k
  rw [rsq, inc, sdu, evc, refusedAt_eq]
  exact ⟨rfl, rfl, rfl, rfl, rfl, rfl, rfl, rfl, rfl, rfl, rfl, spt, esa, slc, rqh, cfl, pins⟩

/-- Settles O25: the record takes the arrival, then RSQ takes or refuses the re-sag. -/
theorem resagReturnsToInject : Obligations.ResagReturnsToInject := by
  unfold Obligations.ResagReturnsToInject
  refine ⟨resagHere_iff, ?_⟩
  intro k s h u
  have released : s.rsq.state = .release := ((resagHere_iff s).mp h).1
  let rested : State := { s with sdu := { s.sdu with recovery := 0 } }
  have hu : u = takeResag (accumulate rested) := detect_of_resag k h
  have sdu : u.sdu = (accumulate rested).sdu := by simp [hu]
  obtain ⟨linkLow, event, endCause, counter, overRun, bridge, ratio, method⟩ :=
    takeResag_keeps_event (accumulate rested)
  have accumulated : accumulate rested = { s with sdu := (accumulate rested).sdu } := by
    apply state_ext <;> simp [rested]
  refine ⟨?frame, sdu.trans (accumulate_sdu rested), ?_, ?_, ?_, ?_, ?_, ?_, ?_, ?_, ?_, ?_, ?taken, ?refused⟩
  case frame => apply state_ext <;> simp [hu, rested]
  case taken =>
    intro hw he
    rw [hu, accumulated, takeResag_of_taken (by exact hw) (by exact he)]
    exact ⟨rfl, rfl, rfl, rfl, rfl, rfl⟩
  case refused =>
    intro hr
    rw [hu, accumulated, takeResag_of_refused (by exact hr)]
    exact ⟨released, rfl, rfl, rfl, rfl⟩
  all_goals simp [hu, rested, linkLow, event, endCause, counter, overRun, bridge, ratio, method]

end Sys2Proof.Machine
end

section
/-! SUPPORT. What a command does to the queue, the clock and the line: the ways in which SLC's record changes. -/

namespace Sys2Proof.Machine

variable (s : State)

/-! The clock (log 2). -/

theorem deadlinePasses_now_le (k : ArrivalTaking) : s.now ≤ (deadlinePasses k s).now := by
  unfold deadlinePasses
  split <;> simp

theorem strobeTime_now_le : s.now ≤ (strobeTime s).now := by
  unfold strobeTime
  (repeat' split) <;> simp

theorem setArrives_now_le (t : Nat) (x : RawSet) (k : ArrivalTaking) : s.now ≤ (setArrives t x k s).now := by
  unfold setArrives
  split
  · split
    · exact (deadlinePasses_now_le s k).trans (by simp)
    · simp
  · simp

theorem startAlone_now_le : s.now ≤ (startAlone s).now := by
  unfold startAlone
  split <;> simp

theorem slotStarts_now_le (k : FrameTaking) : s.now ≤ (slotStarts k s).now := by
  unfold slotStarts
  dsimp only
  (repeat' split) <;> simp

/-- No command moves the clock back (log 2). -/
theorem effect_now_le (c : Instr) : s.now ≤ (effect c s).now := by
  cases c <;> simp only [effect]
  case strobe => exact (deadlinePasses_now_le s _).trans (strobeTime_now_le _)
  case sampleSetArrival => exact setArrives_now_le s _ _ _
  case arrivalDeadline => exact deadlinePasses_now_le s _
  case startAlone => exact startAlone_now_le s
  case slotStart => exact slotStarts_now_le s _
  all_goals (repeat' split) <;> simp

/-- No command touches the queue (log 1). -/
theorem effect_pending (c : Instr) : (effect c s).pending = s.pending := by
  cases c <;> simp only [effect] <;> (repeat' split) <;> simp

/-! The line. -/

/-- SLC after a soft reset: the frame number stands (R57). -/
def softResetLine (p : Slc) : Slc := { Slc.initial with frameNumber := p.frameNumber }

theorem carryOutReset_slc (x : BitVec 4) : (carryOutReset x s).slc = softResetLine s.slc := by
  simp [carryOutReset, softResetState, softResetLine]

/-- An arrival changes the line by a soft reset alone (R132). -/
theorem arrive_slc (k : ArrivalTaking) (n : Nat) (g : Option SampleSet) :
    (arrive k n g s).slc = s.slc ∨ (arrive k n g s).slc = softResetLine s.slc := by
  refine arrive_induct s (fun u => u.slc = s.slc ∨ u.slc = softResetLine s.slc) k n g (.inl (by simp)) ?part ?reset
  case part =>
    intro a p u hu
    simpa using hu
  case reset =>
    intro x u _ _ hu
    refine .inr ((carryOutReset_slc u x).trans ?_)
    rcases hu with h | h <;> rw [h]
    rfl

theorem deadlinePasses_slc (k : ArrivalTaking) :
    (deadlinePasses k s).slc = s.slc ∨ (deadlinePasses k s).slc = softResetLine s.slc := by
  unfold deadlinePasses
  split
  · exact arrive_slc (s.moveTo _) k _ none
  · exact .inl rfl

theorem setArrives_slc (t : Nat) (x : RawSet) (k : ArrivalTaking) :
    (setArrives t x k s).slc = s.slc ∨ (setArrives t x k s).slc = softResetLine s.slc := by
  unfold setArrives
  split
  · split
    · simpa using deadlinePasses_slc s k
    · exact arrive_slc (s.moveTo t) k _ _
  · exact .inl rfl

/-- The commands that start every block afresh: POWER_ON and the RESET input's two (R57). -/
def StartsAfresh (c : Instr) : Prop :=
  c = .powerOn ∨ c = .resetAsserted ∨ ∃ t straps, c = .resetReleased t straps

/-- What a command can make of SLC's record. -/
inductive LineChange (c : Instr) (s : State) : Slc → Prop
  | stands : LineChange c s s.slc
  | afresh (h : StartsAfresh c) : LineChange c s Slc.initial
  | softReset : LineChange c s (softResetLine s.slc)
  | load (r : LoadResult) (t : Nat) : LineChange c s (comeIntoForce r (s.moveTo t)).slc
  | blockStart (t : Nat) : LineChange c s (blockBegins t s.slc)
  | readback (bytes : List Byte) (t : Nat) : LineChange c s (takeReadback bytes (s.moveTo t)).slc
  | block (bytes : List Byte) (t : Nat) : LineChange c s (takeBlock bytes (s.moveTo t)).slc
  | alone : LineChange c s (startAlone s).slc
  | slot (k : FrameTaking) : LineChange c s (slotStarts k s).slc

theorem LineChange.of_arrival {c : Instr} {s : State} {p : Slc} (h : p = s.slc ∨ p = softResetLine s.slc) :
    LineChange c s p := by
  rcases h with rfl | rfl
  · exact .stands
  · exact .softReset

theorem LineChange.of_stands {c : Instr} {s : State} {p : Slc} (h : p = s.slc) : LineChange c s p := h ▸ .stands

theorem endLoad_lineChange (c : Instr) (r : LoadResult) (t : Nat) :
    LineChange c s (endLoad r (s.moveTo t)).slc := by
  unfold endLoad
  split
  · exact .load r t
  · exact .of_stands (by simp)

/-- Every command changes the line in one of these ways. -/
theorem effect_lineChange (c : Instr) : LineChange c s (effect c s).slc := by
  cases c <;> simp only [effect]
  case powerOn => exact .afresh (.inl rfl)
  case resetAsserted => exact .afresh (.inr (.inl rfl))
  case resetReleased t x =>
    split
    · simpa [initialState] using LineChange.afresh (.inr (.inr ⟨t, x, rfl⟩))
    · exact .of_stands (by simp)
  case memoryNoAnswer t => exact endLoad_lineChange s _ _ t
  case loadCompletion t image => exact endLoad_lineChange s _ _ t
  case sampleSetArrival t x k => exact .of_arrival (setArrives_slc s t x k)
  case arrivalDeadline k => exact .of_arrival (deadlinePasses_slc s k)
  case blockStart t =>
    split
    · exact .of_stands (by simp)
    · exact .blockStart _
  case blockReceived t own bytes =>
    split
    · exact .readback bytes t
    · exact .block bytes t
  case startAlone => exact .alone
  case slotStart k => exact .slot k
  case softResetCarriedOut t x =>
    split
    · rw [carryOutReset_slc]
      simpa using LineChange.softReset
    · exact .of_stands (by simp)
  all_goals
    refine .of_stands ?_
    (repeat' split) <;> simp

/-! A block taken: the fields that its parts leave. -/

@[simp] theorem timeBlock_fields (r : Reception) (b : Block) :
    (timeBlock r b s).slc.membership = s.slc.membership ∧ (timeBlock r b s).slc.listenEnd = s.slc.listenEnd ∧
    (timeBlock r b s).slc.heardFirst = s.slc.heardFirst ∧ (timeBlock r b s).slc.frameNumber = s.slc.frameNumber ∧
    (timeBlock r b s).slc.peers = s.slc.peers ∧ (timeBlock r b s).slc.lineErrors = s.slc.lineErrors ∧
    (timeBlock r b s).slc.collisionMark = s.slc.collisionMark ∧ (timeBlock r b s).slc.rx = s.slc.rx ∧
    (timeBlock r b s).slc.tx = s.slc.tx := by
  unfold timeBlock takeMisaligned retime
  dsimp only
  (repeat' split) <;> simp

@[simp] theorem adopt_fields (r : Reception) (b : Block) :
    (adopt r b s).slc.membership = s.slc.membership ∧ (adopt r b s).slc.peers = s.slc.peers ∧
    (adopt r b s).slc.lineErrors = s.slc.lineErrors ∧ (adopt r b s).slc.collisionMark = s.slc.collisionMark ∧
    (adopt r b s).slc.misalignCount = s.slc.misalignCount ∧ (adopt r b s).slc.candidate = s.slc.candidate ∧
    (adopt r b s).slc.rx = s.slc.rx ∧ (adopt r b s).slc.tx = s.slc.tx := by
  unfold adopt retime
  split <;> simp

@[simp] theorem takeEntry_fields (b : Block) :
    (takeEntry b s).slc.membership = s.slc.membership ∧ (takeEntry b s).slc.timing = s.slc.timing ∧
    (takeEntry b s).slc.listenEnd = s.slc.listenEnd ∧ (takeEntry b s).slc.heardFirst = s.slc.heardFirst ∧
    (takeEntry b s).slc.frameNumber = s.slc.frameNumber ∧ (takeEntry b s).slc.lineErrors = s.slc.lineErrors ∧
    (takeEntry b s).slc.collisionMark = s.slc.collisionMark ∧
    (takeEntry b s).slc.misalignCount = s.slc.misalignCount ∧ (takeEntry b s).slc.candidate = s.slc.candidate ∧
    (takeEntry b s).slc.rx = s.slc.rx ∧ (takeEntry b s).slc.tx = s.slc.tx := by
  simp [takeEntry]

/-- The end of a reception can enter a block in the peer table, and changes the table in no other way (R51). -/
theorem takeBlock_peers (bytes : List Byte) :
    (takeBlock bytes s).slc.peers = s.slc.peers ∨
    ∃ b, (takeBlock bytes s).slc.peers = s.slc.peers.modify b.slot.toNat (PeerEntry.take s.cfl.digest b) := by
  unfold takeBlock
  split
  · dsimp only
    split
    · exact .inl rfl
    · unfold sortBlock
      split
      · refine .inl ?_
        unfold takeClaim
        split <;> rfl
      · exact .inr ⟨decodeBlock bytes, by simp [takeEntry]⟩
  · exact .inl rfl

/-! The frame end's other parts, and the coming into force. -/

/-- Of the line a part of the frame end changes what a transmission changes, and nothing else (R43). -/
@[simp] theorem framePart_fields (k : FrameTaking) (t : Nat) (p : FramePart) :
    (framePart k t p s).slc.membership = s.slc.membership ∧ (framePart k t p s).slc.frameNumber = s.slc.frameNumber ∧
    (framePart k t p s).slc.peers = s.slc.peers ∧ (framePart k t p s).slc.collisionRun = s.slc.collisionRun ∧
    (framePart k t p s).slc.collisionCount = s.slc.collisionCount ∧
    (framePart k t p s).slc.misalignRun = s.slc.misalignRun ∧ (framePart k t p s).slc.candidate = s.slc.candidate ∧
    (framePart k t p s).slc.duplicate = s.slc.duplicate := by
  cases p <;> simp [framePart]

/-- So SLC's own work settles the rest of the line at a frame end (R55). -/
@[simp] theorem frameEnd_fields (k : FrameTaking) (t : Nat) :
    (frameEnd k t s).slc.membership = (frameEndSlc t s).slc.membership ∧
    (frameEnd k t s).slc.frameNumber = (frameEndSlc t s).slc.frameNumber ∧
    (frameEnd k t s).slc.peers = (frameEndSlc t s).slc.peers ∧
    (frameEnd k t s).slc.collisionRun = (frameEndSlc t s).slc.collisionRun ∧
    (frameEnd k t s).slc.collisionCount = (frameEndSlc t s).slc.collisionCount ∧
    (frameEnd k t s).slc.misalignRun = (frameEndSlc t s).slc.misalignRun ∧
    (frameEnd k t s).slc.candidate = (frameEndSlc t s).slc.candidate ∧
    (frameEnd k t s).slc.duplicate = (frameEndSlc t s).slc.duplicate := by
  generalize hs : frameEndSlc t s = s1
  refine frameEnd_induct s (fun u =>
    u.slc.membership = s1.slc.membership ∧ u.slc.frameNumber = s1.slc.frameNumber ∧ u.slc.peers = s1.slc.peers ∧
    u.slc.collisionRun = s1.slc.collisionRun ∧ u.slc.collisionCount = s1.slc.collisionCount ∧
    u.slc.misalignRun = s1.slc.misalignRun ∧ u.slc.candidate = s1.slc.candidate ∧
    u.slc.duplicate = s1.slc.duplicate) k t (by simp [hs]) ?_
  intro p u h
  simpa using h

/-- The peer table after SLC's work: aged, and the own entry filled (R50, R54, R55). -/
theorem frameEndSlc_peers (t : Nat) :
    (frameEndSlc t s).slc.peers = (fillOwn (stepNumber (stepAge (setDemand s)))).slc.peers := by
  simp [frameEndSlc]

/-- The coming into force re-evaluates the foreign flags and leaves the frame number (R53). -/
theorem comeIntoForce_slc (r : LoadResult) :
    (comeIntoForce r s).slc.frameNumber = s.slc.frameNumber ∧
    (comeIntoForce r s).slc.peers = reflag (ownSlot s) (digestOf r.settings) s.slc.peers := by
  simp only [comeIntoForce, leaveOff_frame]
  unfold enterListen
  split <;> exact ⟨rfl, rfl⟩

@[simp] theorem startAlone_fields :
    (startAlone s).slc.frameNumber = s.slc.frameNumber ∧ (startAlone s).slc.peers = s.slc.peers := by
  unfold startAlone
  split
  · simp [declareAlone_keeps]
  · exact ⟨rfl, rfl⟩

@[simp] theorem takeReadback_fields (bytes : List Byte) :
    (takeReadback bytes s).slc.frameNumber = s.slc.frameNumber ∧
    (takeReadback bytes s).slc.peers = s.slc.peers := by
  unfold takeReadback
  split <;> exact ⟨rfl, rfl⟩

end Sys2Proof.Machine
end

section
/-! The peer table through every step (R50, R54). -/

namespace Sys2Proof.Machine

/-! One entry. -/

theorem EntrySound.of_live {e : PeerEntry} (hs : e.state = .live) (hm : e.missed = 0) : EntrySound e where
  live _ := hm
  held h := by simp [hs] at h
  absent h := by simp [hs] at h

theorem EntrySound.of_held {e : PeerEntry} (hs : e.state = .held) (hm : Within 1 4 e.missed) : EntrySound e where
  live h := by simp [hs] at h
  held _ := hm
  absent h := by simp [hs] at h

theorem entrySound_absent : EntrySound PeerEntry.absent where
  live h := by cases h
  held h := by cases h
  absent _ := rfl

theorem entrySound_take (digest : Half) (b : Block) (e : PeerEntry) : EntrySound (e.take digest b) :=
  .of_live rfl rfl

theorem entrySound_ownEntry (s : State) (e : PeerEntry) : EntrySound (ownEntry s e) := .of_live rfl rfl

/-- A heard entry is no ABSENT one, so it only loses its mark; the others count one frame end more (R54). -/
theorem EntrySound.age {e : PeerEntry} (h : EntrySound e) : EntrySound e.age := by
  unfold PeerEntry.age
  split
  · rename_i heard
    refine ⟨h.live, h.held, fun ha => ?_⟩
    rw [h.absent ha] at heard
    cases heard
  · split
    · exact .of_held rfl ⟨Nat.le_refl 1, Nat.le_add_left 1 3⟩
    · split
      · rename_i hs hle
        exact .of_held hs ⟨Nat.le_add_left 1 _, hle⟩
      · exact entrySound_absent
    · exact entrySound_absent

/-- The foreign flag of an ABSENT entry stays clear: it holds no slow values (R53, R54). -/
theorem EntrySound.reflag {e : PeerEntry} (h : EntrySound e) (digest : Half) :
    EntrySound { e with foreign := foreignTo digest e.slow } where
  live := h.live
  held := h.held
  absent ha := by
    rw [h.absent ha]
    rfl

/-! The table. -/

/-- Twelve sound entries: what `PeerTableSound` says of the table of a state (R50, R54). -/
def PeersSound (l : List PeerEntry) : Prop := l.length = 12 ∧ ∀ e ∈ l, EntrySound e

theorem peersSound_initial : PeersSound Slc.initial.peers := by
  refine ⟨rfl, fun e he => ?_⟩
  rw [List.eq_of_mem_replicate he]
  exact entrySound_absent

theorem PeersSound.mapIdx {l : List PeerEntry} (h : PeersSound l) (f : Nat → PeerEntry → PeerEntry)
    (hf : ∀ j e, EntrySound e → EntrySound (f j e)) : PeersSound (l.mapIdx f) := by
  obtain ⟨hlen, hall⟩ := h
  refine ⟨by simpa using hlen, fun e he => ?_⟩
  obtain ⟨j, hj, rfl⟩ := List.mem_mapIdx.mp he
  exact hf j _ (hall _ (List.getElem_mem hj))

theorem PeersSound.modify {l : List PeerEntry} (h : PeersSound l) (j : Nat) (f : PeerEntry → PeerEntry)
    (hf : ∀ e, EntrySound (f e)) : PeersSound (l.modify j f) := by
  obtain ⟨hlen, hall⟩ := h
  refine ⟨by simpa using hlen, fun e he => ?_⟩
  obtain ⟨i, hi, rfl⟩ := List.mem_iff_getElem.mp he
  rw [List.getElem_modify]
  split
  · exact hf _
  · exact hall _ (List.getElem_mem _)

theorem PeersSound.agePeers {l : List PeerEntry} (h : PeersSound l) (own : Option Nat) :
    PeersSound (agePeers own l) := by
  refine h.mapIdx _ fun j e he => ?_
  split
  · exact he
  · exact he.age

theorem PeersSound.reflag {l : List PeerEntry} (h : PeersSound l) (own : Option Nat) (digest : Half) :
    PeersSound (reflag own digest l) := by
  refine h.mapIdx _ fun j e he => ?_
  split
  · exact he
  · exact he.reflag digest

theorem PeersSound.frameEndSlc {s : State} (h : PeersSound s.slc.peers) (t : Nat) :
    PeersSound (frameEndSlc t s).slc.peers := by
  rw [frameEndSlc_peers]
  have aged : PeersSound (stepNumber (stepAge (setDemand s))).slc.peers := by
    simpa [stepAge] using h.agePeers _
  unfold fillOwn
  split
  · exact aged.modify _ _ (entrySound_ownEntry _)
  · exact aged

theorem PeersSound.slotStarts {s : State} (h : PeersSound s.slc.peers) (k : FrameTaking) :
    PeersSound (slotStarts k s).slc.peers := by
  unfold Machine.slotStarts
  split
  · dsimp only
    split
    · simp only [frameEnd_fields]
      refine PeersSound.frameEndSlc ?_ _
      exact h
    · simpa using h
  · exact h

/-- Whatever a command makes of the line, the table stays sound. -/
theorem LineChange.peersSound {c : Instr} {s : State} {p : Slc} (hp : LineChange c s p)
    (h : PeersSound s.slc.peers) : PeersSound p.peers := by
  cases hp with
  | stands => exact h
  | afresh => exact peersSound_initial
  | softReset => exact peersSound_initial
  | load r t =>
    simp only [comeIntoForce_slc]
    exact PeersSound.reflag (by simpa using h) _ _
  | blockStart t => simpa using h
  | readback bytes t => simpa using h
  | block bytes t =>
    rcases takeBlock_peers (s.moveTo t) bytes with hb | ⟨b, hb⟩ <;> rw [hb]
    · simpa using h
    · exact PeersSound.modify (by simpa using h) _ _ (entrySound_take _ b)
  | alone => simpa using h
  | slot k => exact h.slotStarts k

/-- Settles O51: every command changes the line in one of nine ways, and each keeps the table sound. -/
theorem peerTableSoundKept : Obligations.PeerTableSoundKept := by
  unfold Obligations.PeerTableSoundKept
  intro s u hs hu
  exact step_induct_effect PeerTableSound (fun _ _ h => h)
    (fun c s h => (effect_lineChange s c).peersSound h) hs hu

end Sys2Proof.Machine
end

section
/-! Every command answers, leaves the queue, and moves neither the clock nor the frame number back (R48, R57). -/

namespace Sys2Proof.Machine

variable (s : State)

theorem toNat_greater (a b : Word) : (greater a b).toNat = max a.toNat b.toNat := by
  unfold greater
  split <;> rename_i h <;> rw [BitVec.lt_def] at h <;> omega

theorem toNat_satInc_word (n : Word) : (satInc n).toNat = min 4294967295 (n.toNat + 1) := toNat_satInc n

/-- The greatest of a number and a list's is one of them, and none is above it. -/
theorem foldl_greater_spec (l : List Word) (a : Word) :
    a.toNat ≤ (l.foldl greater a).toNat ∧ (∀ x ∈ l, x.toNat ≤ (l.foldl greater a).toNat) ∧
    (l.foldl greater a = a ∨ l.foldl greater a ∈ l) := by
  induction l generalizing a with
  | nil => simp
  | cons x l ih =>
    obtain ⟨hfirst, hrest, hone⟩ := ih (greater a x)
    rw [toNat_greater] at hfirst
    rw [List.foldl_cons]
    refine ⟨by omega, fun y hy => ?_, ?_⟩
    · rcases List.mem_cons.mp hy with rfl | hy
      · omega
      · exact hrest y hy
    · rcases hone with h | h
      · rw [h]
        unfold greater
        split
        · exact .inr List.mem_cons_self
        · exact .inl rfl
      · exact .inr (List.mem_cons_of_mem x h)

/-- The new frame number is above the own and above each offered one, and is one of them (R48). -/
theorem nextFrameNumber_spec :
    (satInc s.slc.frameNumber).toNat ≤ (nextFrameNumber s).toNat ∧
    (∀ j n, j < 12 → offered s j = some n → n.toNat ≤ (nextFrameNumber s).toNat) ∧
    (nextFrameNumber s = satInc s.slc.frameNumber ∨ ∃ j, j < 12 ∧ offered s j = some (nextFrameNumber s)) := by
  obtain ⟨hown, hothers, hone⟩ :=
    foldl_greater_spec ((List.range 12).filterMap (offered s)) (satInc s.slc.frameNumber)
  refine ⟨hown, fun j n hj hn => ?_, hone.imp id fun h => ?_⟩
  · exact hothers n (List.mem_filterMap.mpr ⟨j, List.mem_range.mpr hj, hn⟩)
  · obtain ⟨j, hj, hn⟩ := List.mem_filterMap.mp h
    exact ⟨j, List.mem_range.mp hj, hn⟩

theorem stepNumber_frameNumber_le : s.slc.frameNumber.toNat ≤ (stepNumber s).slc.frameNumber.toNat := by
  unfold stepNumber
  split
  · obtain ⟨h, -⟩ := nextFrameNumber_spec s
    rw [toNat_satInc_word] at h
    have hlt := s.slc.frameNumber.isLt
    change s.slc.frameNumber.toNat ≤ (nextFrameNumber s).toNat
    omega
  · exact Nat.le_refl _

theorem frameEndSlc_frameNumber (t : Nat) :
    (frameEndSlc t s).slc.frameNumber = (stepNumber (stepAge (setDemand s))).slc.frameNumber := by
  simp [frameEndSlc]

theorem slotStarts_frameNumber_le (k : FrameTaking) :
    s.slc.frameNumber.toNat ≤ (slotStarts k s).slc.frameNumber.toNat := by
  unfold slotStarts
  split
  · dsimp only
    split
    · simp only [frameEnd_fields, frameEndSlc_frameNumber]
      refine le_trans ?_ (stepNumber_frameNumber_le _)
      simp [stepAge]
    · simp
  · exact Nat.le_refl _

theorem adopt_frameNumber_le (r : Reception) (b : Block) :
    s.slc.frameNumber.toNat ≤ (adopt r b s).slc.frameNumber.toNat := by
  unfold adopt
  split
  · change s.slc.frameNumber.toNat ≤ (greater s.slc.frameNumber (satInc b.frameNumber)).toNat
    rw [toNat_greater]
    exact Nat.le_max_left _ _
  · exact Nat.le_refl _

theorem takeBlock_frameNumber_le (bytes : List Byte) :
    s.slc.frameNumber.toNat ≤ (takeBlock bytes s).slc.frameNumber.toNat := by
  unfold takeBlock
  split
  · dsimp only
    split
    · exact Nat.le_refl _
    · unfold sortBlock
      split
      · unfold takeClaim
        split <;> exact Nat.le_refl _
      · simp only [takeEntry_fields]
        refine le_trans ?_ (adopt_frameNumber_le _ _ _)
        simp
  · exact Nat.le_refl _

/-- A command that starts nothing afresh never lowers the frame number (R48). -/
theorem LineChange.frameNumber_le {c : Instr} {s : State} {p : Slc} (hp : LineChange c s p)
    (hc : ¬ StartsAfresh c) : s.slc.frameNumber.toNat ≤ p.frameNumber.toNat := by
  cases hp with
  | stands => exact Nat.le_refl _
  | afresh h => exact absurd h hc
  | softReset => exact Nat.le_refl _
  | load r t => simp [comeIntoForce_slc]
  | blockStart t => simp
  | readback bytes t => simp
  | block bytes t => simpa using takeBlock_frameNumber_le (s.moveTo t) bytes
  | alone => simp
  | slot k => exact slotStarts_frameNumber_le s k

/-- Settles O2: the effect of the command, with its queue, its clock and its line. -/
theorem everyCommandAnswers : Obligations.EveryCommandAnswers := by
  unfold Obligations.EveryCommandAnswers
  intro c s
  refine ⟨effect c s, exec_eq_effect c s, effect_pending s c, effect_now_le s c, fun hpower hassert hrelease => ?_⟩
  refine (effect_lineChange s c).frameNumber_le ?_
  rintro (h | h | ⟨t, x, h⟩)
  · exact hpower h
  · exact hassert h
  · exact hrelease t x h

end Sys2Proof.Machine
end

section
/-! POWER_ON and the RESET input's assertion, and the properties of safety at power-on (R57, R177). -/

namespace Sys2Proof.Machine

/-- Settles O3: both commands' effect is the initial state. -/
theorem powerOnAndResetAsserted : Obligations.PowerOnAndResetAsserted := by
  unfold Obligations.PowerOnAndResetAsserted
  intro s
  exact ⟨exec_eq_effect .powerOn s, rfl⟩

/-- The built-in defaults lie in their ranges (R170, R171, R173). -/
theorem settingsLegal_defaults : SettingsLegal Config.defaults := by
  constructor <;> simp [Config.defaults, Within]

theorem outputsAgree_reset : OutputsAgree State.reset := by
  refine ⟨rfl, fun h => ?_, fun h => ?_, fun _ => rfl, fun _ => rfl⟩ <;> cases h

theorem ringAgrees_reset : RingAgrees State.reset := by
  refine ⟨?_, rfl, rfl, rfl, rfl⟩
  exact List.length_replicate

theorem fractionsBounded_reset : FractionsBounded State.reset where
  full _ := rfl
  ramp := Nat.le_refl _
  ratio := Nat.le_refl _
  lowest := Nat.le_refl _
  allocated := Nat.le_refl _

theorem readinessHolds_reset : ReadinessHolds State.reset := by
  have off : ¬ (State.reset.rsq.state = .ready ∨ State.reset.rsq.state = .inject ∨
      State.reset.rsq.state = .release) := by decide
  refine ⟨fun h => ?_, fun h => absurd h off, fun h => absurd h off⟩
  cases h

theorem configurationSound_reset : ConfigurationSound State.reset where
  settings := settingsLegal_defaults
  digest := by simp only [State.settings, reset_cfl, Cfl.initial]

/-- Settles O60: at power-on the memory is empty, the restorer in OFF, every ratio one, and the settings are the
defaults. -/
theorem safeAtPowerOn : Obligations.SafeAtPowerOn := by
  unfold Obligations.SafeAtPowerOn
  exact ⟨Memory.wf_reset, outputsAgree_reset, ringAgrees_reset, fractionsBounded_reset, readinessHolds_reset,
    configurationSound_reset, peersSound_initial⟩

end Sys2Proof.Machine
end

section
/-! SUPPORT. A block's start and the end of a reception, case by case (R34, R35, R37, R38, R40, R46, R51). -/

namespace Sys2Proof.Machine

variable {s : State}

/-- Time that is yet to come becomes the present. -/
theorem moveTo_of_ge {t : Nat} (h : s.now ≤ t) : s.moveTo t = { s with now := t } := by
  unfold State.moveTo
  rw [Nat.max_eq_right h]

/-! A block's start. -/

theorem lineActive_iff (t : Nat) (p : Slc) :
    lineActive t p = true ↔
      (∃ r, p.rx = some r ∧ t < r.start + 25600) ∨ ∃ x, p.tx = some x ∧ t < x.start + 25600 := by
  unfold lineActive
  cases p.rx <;> cases p.tx <;> simp <;> rfl

theorem inWindow_iff (t : Nat) (g : Timing) :
    inWindow t g = true ↔ g.taken = false ∧ g.nominal ≤ t ∧ t ≤ g.nominal + 12000 := by
  simp only [inWindow, Bool.and_eq_true, Bool.not_eq_true', decide_eq_true_eq, and_assoc]
  rfl

theorem blockBegins_of_window {t : Nat} {p : Slc} {g : Timing} (h : p.timing = some g) (hw : inWindow t g = true) :
    blockBegins t p =
      { p with
        timing := some { g with taken := true, next := t + 40000 }
        rx := some { start := t, inSlot := some g.slot } } := by
  simp [blockBegins, h, hw, Config.slotLength]

theorem blockBegins_of_stray {t : Nat} {p : Slc} (h : ∀ g, p.timing = some g → inWindow t g = false) :
    blockBegins t p = { p with rx := some { start := t, inSlot := none } } := by
  unfold blockBegins
  split
  · rename_i g hg
    simp [h g hg]
  · rfl

/-- On an idle line, with RESET released, a block begins at its instant. -/
theorem exec_blockStart_of_idle {t : Nat} (ht : s.now ≤ t) (hr : s.pins.resetHeld = false)
    (hl : lineActive t s.slc = false) :
    exec (.blockStart t) s = .next { s with now := t, slc := blockBegins t s.slc } := by
  rw [exec_eq_effect]
  simp [effect, moveTo_of_ge ht, hr, hl]

theorem exec_blockStart_of_active {t : Nat} (ht : s.now ≤ t)
    (h : s.pins.resetHeld = true ∨ lineActive t s.slc = true) :
    exec (.blockStart t) s = .next { s with now := t } := by
  rw [exec_eq_effect]
  rcases h with h | h <;> simp [effect, moveTo_of_ge ht, h]

/-! The end of a reception. -/

/-- The state in which a received block is taken: the reception is over. -/
def received (t : Nat) (s : State) : State := { s.moveTo t with slc := { s.slc with rx := none } }

theorem exec_blockReceived_of_error {t : Nat} {bytes : List Byte} {r : Reception} (hr : s.slc.rx = some r)
    (h : blockValid bytes = false ∨ blockMalformed (decodeBlock bytes) = true) :
    exec (.blockReceived t false bytes) s = .next (countLineError (received t s)) := by
  rw [exec_eq_effect]
  rcases h with h | h <;> simp [effect, takeBlock, hr, h, received]

theorem exec_blockReceived_of_good {t : Nat} {bytes : List Byte} {r : Reception} (hr : s.slc.rx = some r)
    (hv : blockValid bytes = true) (hm : blockMalformed (decodeBlock bytes) = false) :
    exec (.blockReceived t false bytes) s = .next (sortBlock r (decodeBlock bytes) (received t s)) := by
  rw [exec_eq_effect]
  simp [effect, takeBlock, hr, hv, hm, received]

theorem exec_blockReceived_of_no_rx (t : Nat) (bytes : List Byte) (hr : s.slc.rx = none) :
    exec (.blockReceived t false bytes) s = .next (s.moveTo t) := by
  rw [exec_eq_effect]
  simp [effect, takeBlock, hr]

theorem exec_blockReceived_of_tx (t : Nat) (bytes : List Byte) {x : Transmission} (hx : s.slc.tx = some x) :
    exec (.blockReceived t true bytes) s = .next
      { s.moveTo t with
        slc := { s.slc with
          tx := none
          collisionMark := s.slc.collisionMark ||
            (s.slc.membership == .member && (!blockValid bytes || bytes != x.bytes)) }
        rsq := { s.rsq with sentSince := s.rsq.sentSince || x.quiesce } } := by
  rw [exec_eq_effect]
  simp [effect, takeReadback, hx]

theorem exec_blockReceived_of_no_tx (t : Nat) (bytes : List Byte) (hx : s.slc.tx = none) :
    exec (.blockReceived t true bytes) s = .next (s.moveTo t) := by
  rw [exec_eq_effect]
  simp [effect, takeReadback, hx]

/-- A claim marks a collision in MEMBER alone (R38, R44). -/
theorem takeClaim_eq (s : State) :
    takeClaim s = { s with slc := { s.slc with
      collisionMark := if s.slc.membership = .member then true else s.slc.collisionMark } } := by
  unfold takeClaim
  split <;> rfl

/-- A valid block's slot is one of the twelve (R37). -/
theorem slot_lt_of_not_malformed {b : Block} (h : blockMalformed b = false) : b.slot.toNat < 12 := by
  simp only [blockMalformed, Bool.or_eq_false_iff, decide_eq_false_iff_not] at h
  omega

/-! A heard block and the timing. -/

/-- A station is timed by a block that began at an instant in a slot: the grid is laid from there, and the window of
the slot that it enters is taken (R38, R40, R46; log 28). -/
def TimedBy (start slot now : Nat) (timing : Option Timing) : Prop :=
  ∃ g, timing = some g ∧ g.slot = (slot + (now - start) / 40000) % 12 ∧
    g.nominal = start + (now - start) / 40000 * 40000 ∧ g.next = start + ((now - start) / 40000 + 1) * 40000 ∧
    g.taken = true

theorem retime_timedBy (start slot : Nat) (s : State) : TimedBy start slot s.now (retime start slot s).slc.timing :=
  ⟨_, rfl, rfl, rfl, rfl, rfl⟩

theorem timeBlock_of_untimed (r : Reception) (b : Block) (h : s.slc.timing = none) :
    timeBlock r b s = retime r.start b.slot.toNat s := by
  simp [timeBlock, h]

theorem timeBlock_of_aligned {r : Reception} {b : Block} (h : s.slc.timing.isSome = true)
    (ha : r.inSlot = some b.slot.toNat) : timeBlock r b s = s := by
  have hn : s.slc.timing.isNone = false := by simpa [← Option.not_isSome] using h
  simp [timeBlock, hn, aligned, ha]

theorem timeBlock_of_misaligned {r : Reception} {b : Block} (h : s.slc.timing.isSome = true)
    (ha : r.inSlot ≠ some b.slot.toNat) : timeBlock r b s = takeMisaligned r b s := by
  have hn : s.slc.timing.isNone = false := by simpa [← Option.not_isSome] using h
  simp [timeBlock, hn, aligned, ha]

/-- Off the line a misaligned block retimes the station (R46, R56). -/
theorem takeMisaligned_off_line (r : Reception) (b : Block) (h : onLine s = false) :
    takeMisaligned r b s =
      retime r.start b.slot.toNat { s with slc := { s.slc with misalignCount := satInc s.slc.misalignCount } } := by
  simp [takeMisaligned, h]

/-- On the line it leaves a candidate (R46, R47). -/
theorem takeMisaligned_on_line (r : Reception) (b : Block) (h : onLine s = true) :
    takeMisaligned r b s =
      { s with slc := { s.slc with
          misalignCount := satInc s.slc.misalignCount
          candidate := some (candidateAfter s.slc.candidate
            { start := r.start, slot := b.slot.toNat, frameNumber := b.frameNumber }) } } := by
  simp [takeMisaligned, h]

theorem adopt_of_first (r : Reception) (b : Block) (hl : s.slc.membership = .listen) (hf : s.slc.heardFirst = false) :
    adopt r b s = retime r.start b.slot.toNat
      { s with slc := { s.slc with
          listenEnd := none
          heardFirst := true
          frameNumber := greater s.slc.frameNumber (satInc b.frameNumber) } } := by
  simp [adopt, hl, hf]

theorem adopt_of_later (r : Reception) (b : Block) (h : s.slc.membership ≠ .listen ∨ s.slc.heardFirst = true) :
    adopt r b s = s := by
  unfold adopt
  rw [if_neg]
  rintro ⟨hl, hf⟩
  rcases h with h | h
  · exact h hl
  · rw [hf] at h
    cases h

/-! A heard block and the peer table. -/

theorem peerEntry_congr {s u : State} (h : u.slc.peers = s.slc.peers) (j : Nat) : peerEntry u j = peerEntry s j := by
  simp [peerEntry, h]

theorem takeEntry_peerEntry_same (b : Block) (hb : b.slot.toNat < s.slc.peers.length) :
    peerEntry (takeEntry b s) b.slot.toNat = (peerEntry s b.slot.toNat).take s.cfl.digest b := by
  simp [peerEntry, takeEntry, List.getD_eq_getElem?_getD, hb]

/-- A block of another station: taken, adopted if it is the first of LISTEN, and entered in the peer table. -/
def heard (t : Nat) (r : Reception) (b : Block) (s : State) : State :=
  takeEntry b (adopt r b (timeBlock r b (received t s)))

theorem exec_blockReceived_of_heard {t : Nat} {bytes : List Byte} {r : Reception} (hr : s.slc.rx = some r)
    (hv : blockValid bytes = true) (hm : blockMalformed (decodeBlock bytes) = false)
    (ho : ownSlot s ≠ some (decodeBlock bytes).slot.toNat) :
    exec (.blockReceived t false bytes) s = .next (heard t r (decodeBlock bytes) s) := by
  have ho' : ownSlot (received t s) ≠ some (decodeBlock bytes).slot.toNat := ho
  rw [exec_blockReceived_of_good hr hv hm, sortBlock, if_neg ho', heard]

/-- A heard block moves the clock and the line alone. -/
theorem heard_frame (t : Nat) (r : Reception) (b : Block) (s : State) :
    heard t r b s = { s with now := max s.now t, slc := (heard t r b s).slc } := by
  apply state_ext <;> simp [heard, received]

theorem heard_fields (t : Nat) (r : Reception) (b : Block) (s : State) :
    (heard t r b s).slc.rx = none ∧ (heard t r b s).slc.membership = s.slc.membership ∧
    (heard t r b s).slc.lineErrors = s.slc.lineErrors ∧ (heard t r b s).slc.collisionMark = s.slc.collisionMark ∧
    (heard t r b s).slc.tx = s.slc.tx := by
  simp [heard, received]

theorem heard_peerEntry_other (t : Nat) (r : Reception) {b : Block} (s : State) {j : Nat} (hj : j ≠ b.slot.toNat) :
    peerEntry (heard t r b s) j = peerEntry s j := by
  rw [heard, takeEntry_peerEntry_other _ b hj]
  exact peerEntry_congr (by simp [received]) j

theorem heard_peerEntry_same (t : Nat) (r : Reception) {b : Block} (hb : b.slot.toNat < 12)
    (hl : s.slc.peers.length = 12) :
    peerEntry (heard t r b s) b.slot.toNat = (peerEntry s b.slot.toNat).take s.cfl.digest b := by
  have hp : (adopt r b (timeBlock r b (received t s))).slc.peers = s.slc.peers := by simp [received]
  have hc : (adopt r b (timeBlock r b (received t s))).cfl = s.cfl := by simp [received]
  rw [heard, takeEntry_peerEntry_same b (by rw [hp, hl]; exact hb), hc, peerEntry_congr hp]

/-- Any block but the first of LISTEN: its timing effect, then its entry. -/
theorem heard_of_later (t : Nat) (r : Reception) (b : Block)
    (h : s.slc.membership ≠ .listen ∨ s.slc.heardFirst = true) :
    heard t r b s = takeEntry b (timeBlock r b (received t s)) := by
  rw [heard, adopt_of_later]
  simpa [received] using h

end Sys2Proof.Machine
end

section
/-! The statements on blocks heard from the line, and on the own one read back (R34, R35, R37, R38, R44, R51 to R53). -/

namespace Sys2Proof.Machine

/-- Settles O44: the block is the slot's inside the window, and a stray block elsewhere. -/
theorem blockStartSortsBlock : Obligations.BlockStartSortsBlock := by
  unfold Obligations.BlockStartSortsBlock
  intro t s ht
  refine ⟨?slots, ?outside, ?untimed, exec_blockStart_of_active ht, lineActive_iff t s.slc⟩
  case slots =>
    intro g hr hl hg htaken hlo hhi
    rw [exec_blockStart_of_idle ht hr hl, blockBegins_of_window hg ((inWindow_iff t g).mpr ⟨htaken, hlo, hhi⟩)]
  case outside =>
    intro g hr hl hg hout
    rw [exec_blockStart_of_idle ht hr hl, blockBegins_of_stray]
    intro g' hg'
    obtain rfl : g = g' := Option.some.inj (hg.symm.trans hg')
    refine Bool.eq_false_iff.mpr fun hw => ?_
    obtain ⟨htaken, hlo, hhi⟩ := (inWindow_iff t g).mp hw
    rcases hout with h | h | h
    · simp [htaken] at h
    · omega
    · omega
  case untimed =>
    intro hr hl hg
    rw [exec_blockStart_of_idle ht hr hl, blockBegins_of_stray]
    simp [hg]

/-- Settles O45: an error, a claim, a read-back, and neither. -/
theorem lineErrorsAndClaims : Obligations.LineErrorsAndClaims := by
  unfold Obligations.LineErrorsAndClaims
  refine ⟨?error, ?claim, ?readback, ?none⟩
  case error =>
    intro t bytes s r hr h
    have hcount : s.slc.lineErrors + 1 = BitVec.ofNat 16 (s.slc.lineErrors.toNat + 1) :=
      BitVec.eq_of_toNat_eq (by simp)
    rw [exec_blockReceived_of_error hr h, ← hcount]
    rfl
  case claim =>
    intro t bytes s r hr hv hm ho
    have ho' : ownSlot (received t s) = some (decodeBlock bytes).slot.toNat := ho
    rw [exec_blockReceived_of_good hr hv hm, sortBlock, if_pos ho', takeClaim_eq]
    rfl
  case readback =>
    intro t bytes s x hx
    rw [exec_blockReceived_of_tx t bytes hx]
    rfl
  case none => exact fun t bytes s => ⟨exec_blockReceived_of_no_rx t bytes, exec_blockReceived_of_no_tx t bytes⟩

/-- Settles O46: an aligned block leaves the timing, so only its entry changes. -/
theorem alignedBlockTaken : Obligations.AlignedBlockTaken := by
  unfold Obligations.AlignedBlockTaken
  intro t bytes s r g hr hg hv hm b hslot hown hlater hlen
  have hu : heard t r b s = takeEntry b (received t s) := by
    rw [heard_of_later t r b hlater, timeBlock_of_aligned (by simp [received, hg]) hslot]
  refine ⟨heard t r b s, exec_blockReceived_of_heard hr hv hm hown, ?line, fun j => heard_peerEntry_other t r s, ?entry⟩
  case line =>
    rw [hu]
    rfl
  case entry =>
    intro e e'
    have he' : e' = e.take s.cfl.digest b := heard_peerEntry_same t r (slot_lt_of_not_malformed hm) hlen
    rw [he']
    refine ⟨rfl, rfl, rfl, rfl, rfl, rfl, rfl, fun hc => ?_, fun hc => ?_⟩
    · simp [PeerEntry.take, acceptSlow, hc, foreignTo]
    · simp [PeerEntry.take, acceptSlow, hc]

/-! A heard block and the timing. -/

/-- The foreign flag is clear without accepted slow fields, and else tells whether their digest is another (R53). -/
theorem foreignTo_spec (d : Half) (w : Slow) :
    foreignTo d none = false ∧ (foreignTo d (some w) = true ↔ w.digest ≠ d) := by
  simp [foreignTo]

theorem candidateAfter_spec (o c : Candidate) :
    (o.frameNumber < c.frameNumber ∨ (c.frameNumber = o.frameNumber ∧ c.slot < o.slot) →
      candidateAfter (some o) c = c) ∧
    (c.frameNumber < o.frameNumber ∨ (c.frameNumber = o.frameNumber ∧ o.slot ≤ c.slot) →
      candidateAfter (some o) c = o) := by
  refine ⟨fun h => ?_, fun h => ?_⟩
  · simp only [candidateAfter, if_pos h]
  · simp only [candidateAfter]
    rw [if_neg]
    simp only [BitVec.lt_def] at h ⊢
    rintro (hn | ⟨hn, hs⟩) <;> rcases h with hm | ⟨hm, hs'⟩
    · omega
    · rw [hm] at hn
      omega
    · rw [hn] at hm
      omega
    · omega

/-- The first block of LISTEN: adopted, with the timing effect that it has anyway on the misalignment count (R40). -/
theorem heard_of_first (t : Nat) (r : Reception) (b : Block) {s : State} (hl : s.slc.membership = .listen)
    (hf : s.slc.heardFirst = false) :
    TimedBy r.start b.slot.toNat (max s.now t) (heard t r b s).slc.timing ∧ (heard t r b s).slc.heardFirst = true ∧
    (heard t r b s).slc.listenEnd = none ∧
    (heard t r b s).slc.frameNumber.toNat = max s.slc.frameNumber.toNat (min 4294967295 (b.frameNumber.toNat + 1)) ∧
    (heard t r b s).slc.candidate = s.slc.candidate ∧
    (heard t r b s).slc.misalignCount = (timeBlock r b (received t s)).slc.misalignCount := by
  have hu : heard t r b s = takeEntry b (retime r.start b.slot.toNat
      { timeBlock r b (received t s) with slc := { (timeBlock r b (received t s)).slc with
          listenEnd := none
          heardFirst := true
          frameNumber := greater s.slc.frameNumber (satInc b.frameNumber) } }) := by
    rw [heard, adopt_of_first r b (by simpa [received] using hl) (by simpa [received] using hf)]
    simp [received]
  have hnow : (timeBlock r b (received t s)).now = max s.now t := by simp [received]
  have off : onLine (received t s) = false := by simp [onLine, received, hl]
  have hcand : (timeBlock r b (received t s)).slc.candidate = s.slc.candidate := by
    unfold timeBlock
    rw [takeMisaligned_off_line r b off]
    (repeat' split) <;> rfl
  rw [hu]
  simp only [takeEntry_fields]
  refine ⟨?_, rfl, rfl, ?_, hcand, rfl⟩
  · rw [← hnow]
    exact retime_timedBy _ _ _
  · change (greater s.slc.frameNumber (satInc b.frameNumber)).toNat = _
    rw [toNat_greater, toNat_satInc_word]

/-- The misalignment count: up for a misaligned block heard while timed, and for no other (R56). -/
theorem timeBlock_misalignCount (t : Nat) (r : Reception) (b : Block) (s : State) :
    (s.slc.timing = none ∨ r.inSlot = some b.slot.toNat →
      (timeBlock r b (received t s)).slc.misalignCount = s.slc.misalignCount) ∧
    (s.slc.timing.isSome = true → r.inSlot ≠ some b.slot.toNat →
      (timeBlock r b (received t s)).slc.misalignCount = satInc s.slc.misalignCount) := by
  refine ⟨fun h => ?_, fun ht ha => ?_⟩
  · by_cases hn : s.slc.timing = none
    · rw [timeBlock_of_untimed r b (by exact hn)]
      rfl
    · rw [timeBlock_of_aligned (by exact Option.isSome_iff_ne_none.mpr hn) (h.resolve_left hn)]
      rfl
  · rw [timeBlock_of_misaligned (by exact ht) ha]
    unfold takeMisaligned
    split <;> rfl

/-- A misaligned block retimes a station off the line and leaves a candidate at one on it (R46, R47, R56). -/
theorem heard_of_misaligned (t : Nat) {r : Reception} {b : Block} {s : State}
    (hlater : s.slc.membership ≠ .listen ∨ s.slc.heardFirst = true) (ht : s.slc.timing.isSome = true)
    (ha : r.inSlot ≠ some b.slot.toNat) :
    (onLine s = false → TimedBy r.start b.slot.toNat (max s.now t) (heard t r b s).slc.timing ∧
      (heard t r b s).slc.candidate = s.slc.candidate) ∧
    (onLine s = true → (heard t r b s).slc.timing = s.slc.timing ∧
      (heard t r b s).slc.candidate = some (candidateAfter s.slc.candidate
        { start := r.start, slot := b.slot.toNat, frameNumber := b.frameNumber })) := by
  rw [heard_of_later t r b hlater, timeBlock_of_misaligned (by exact ht) ha]
  simp only [takeEntry_fields]
  refine ⟨fun off => ?_, fun on => ?_⟩
  · rw [takeMisaligned_off_line r b (by exact off)]
    exact ⟨retime_timedBy _ _ _, rfl⟩
  · rw [takeMisaligned_on_line r b (by exact on)]
    exact ⟨rfl, rfl⟩

/-- Settles O47: the entry as for every heard block; the timing by whether it is the first of LISTEN. -/
theorem heardBlockTimesStation : Obligations.HeardBlockTimesStation := by
  unfold Obligations.HeardBlockTimesStation
  refine ⟨foreignTo_spec, fun _ => rfl, candidateAfter_spec, ?_⟩
  intro t bytes s r hr hv hm b hown
  obtain ⟨hrx, hmember, herr, hmark, htx⟩ := heard_fields t r b s
  refine ⟨heard t r b s, exec_blockReceived_of_heard hr hv hm hown, heard_frame t r b s, hrx, hmember, herr, hmark, htx,
    ⟨?first, ?later⟩, fun j => heard_peerEntry_other t r s, ?entry⟩
  case first =>
    intro hl hf
    obtain ⟨htimed, hheard, hend, hnumber, hcand, hcount⟩ := heard_of_first t r b hl hf
    rw [hcount]
    exact ⟨htimed, hheard, hend, hnumber, hcand, timeBlock_misalignCount t r b s⟩
  case later =>
    intro hlater
    have hu := heard_of_later t r b hlater
    obtain ⟨hstands, hcounts⟩ := timeBlock_misalignCount t r b s
    have hcount : (heard t r b s).slc.misalignCount = (timeBlock r b (received t s)).slc.misalignCount := by
      simp [hu]
    rw [hcount]
    refine ⟨by simp [hu, received], by simp [hu, received], by simp [hu, received], fun hn => ⟨?_, hstands (.inl hn)⟩,
      fun ht ha => ?_, fun ht ha => ⟨hcounts ht ha, heard_of_misaligned t hlater ht ha⟩⟩
    · rw [hu, timeBlock_of_untimed r b (by exact hn)]
      exact retime_timedBy _ _ _
    · rw [hu, timeBlock_of_aligned (by exact ht) ha]
      exact ⟨rfl, rfl, rfl⟩
  case entry =>
    intro hlen e accepted
    exact heard_peerEntry_same t r (slot_lt_of_not_malformed hm) hlen

end Sys2Proof.Machine
end

section
/-! SUPPORT. A slot's start: the own transmission, the readiness test, the frame end's order, and the own entry
(R42, R43, R50, R55, R111). -/

namespace Sys2Proof.Machine

variable {s : State}

/-! The own transmission (R43). -/

theorem transmitAt_of_own {t own : Nat} {g : Timing} (hm : s.slc.membership = .member) (hg : s.slc.timing = some g)
    (ho : ownSlot s = some own) (hslot : g.slot = own) (ht : g.nominal = t) :
    transmitAt t s = { s with slc := { s.slc with
      timing := some { g with taken := true }
      tx := some { start := t, bytes := encodeBlock (ownBlock own s), quiesce := s.rsq.quiesce } } } := by
  simp [transmitAt, transmit, hm, hg, ho, hslot, ht]

theorem transmitAt_of_not_own {t : Nat}
    (h : s.slc.membership ≠ .member ∨ s.slc.timing = none ∨
      ∃ g, s.slc.timing = some g ∧ (ownSlot s ≠ some g.slot ∨ g.nominal ≠ t)) : transmitAt t s = s := by
  unfold transmitAt
  split
  · rename_i g own hg ho
    rw [if_neg]
    rintro ⟨hm, hslot, ht⟩
    rcases h with h | h | ⟨g', hg', h⟩
    · exact h hm
    · simp [h] at hg
    · obtain rfl : g = g' := Option.some.inj (hg.symm.trans hg')
      rcases h with h | h
      · exact h (hslot ▸ ho)
      · exact h ht
  · rfl

/-- A transmission can close the window of the slot and leaves the rest of the timing. -/
theorem transmitAt_timing {g : Timing} (t : Nat) (h : s.slc.timing = some g) :
    ∃ closed, (transmitAt t s).slc.timing = some { g with taken := closed } ∧ (g.taken = true → closed = true) := by
  unfold transmitAt
  split
  · split
    · exact ⟨true, by simp [transmit, h], fun _ => rfl⟩
    · exact ⟨g.taken, h, id⟩
  · exact ⟨g.taken, h, id⟩

/-! The readiness test (R111). -/

theorem readyTest_rsq (s : State) :
    (readyTest s).rsq = { s.rsq with
      state := if s.rsq.state = .charge ∧ s.settings.linkReady ≤ s.spt.lastGood.link ∧ s.pru.lock = .locked ∧
        onLine s = true then .ready else s.rsq.state } := by
  unfold readyTest
  split <;> rfl

/-! Starting alone (R35, R42). -/

theorem declareAlone_of_rx (t : Nat) {p : Slc} {r : Reception} (h : p.rx = some r) :
    declareAlone t p = blockBegins r.start
      { p with
        membership := .member, listenEnd := none
        timing := some
          { slot := 0, nominal := t, next := t + 40000, taken := false
            lastFrameEnd := lastFrameEnd p.timing, gridStart := t } } := by
  simp [declareAlone, h, Config.slotLength]

/-- Slot 0 begins at the declared instant, and a reception in progress is sorted by its window. -/
theorem declareAlone_timing (t : Nat) (p : Slc) :
    ∃ g, (declareAlone t p).timing = some g ∧ g.slot = 0 ∧ g.nominal = t ∧
      (p.rx = none → (declareAlone t p).rx = none ∧ g.next = t + 40000) ∧
      (∀ r, p.rx = some r →
        (t ≤ r.start → r.start ≤ t + 12000 →
          (declareAlone t p).rx = some { start := r.start, inSlot := some 0 } ∧ g.next = r.start + 40000 ∧
          g.taken = true) ∧
        (r.start < t ∨ t + 12000 < r.start →
          (declareAlone t p).rx = some { start := r.start, inSlot := none } ∧ g.next = t + 40000)) := by
  cases hr : p.rx with
  | none =>
    rw [declareAlone_idle t hr]
    exact ⟨_, rfl, rfl, rfl, fun _ => ⟨hr, rfl⟩, by simp⟩
  | some r =>
    rw [declareAlone_of_rx t hr]
    by_cases hw : t ≤ r.start ∧ r.start ≤ t + 12000
    · rw [blockBegins_of_window rfl ((inWindow_iff _ _).mpr ⟨rfl, hw⟩)]
      refine ⟨_, rfl, rfl, rfl, by simp, fun r' hr' => ?_⟩
      obtain rfl := Option.some.inj hr'
      exact ⟨fun _ _ => ⟨rfl, rfl, rfl⟩, fun hout => by omega⟩
    · rw [blockBegins_of_stray (fun g hg => ?_)]
      · refine ⟨_, rfl, rfl, rfl, by simp, fun r' hr' => ?_⟩
        obtain rfl := Option.some.inj hr'
        exact ⟨fun hlo hhi => absurd ⟨hlo, hhi⟩ hw, fun _ => ⟨rfl, rfl⟩⟩
      · obtain rfl := Option.some.inj hg
        refine Bool.eq_false_iff.mpr fun hin => hw ?_
        obtain ⟨-, hwindow⟩ := (inWindow_iff _ _).mp hin
        exact hwindow

/-- The station that has declared slot 0, before its own transmission. -/
def declared (t : Nat) (s : State) : State := { s.moveTo t with slc := declareAlone t s.slc }

@[simp] theorem declared_slc (t : Nat) (s : State) : (declared t s).slc = declareAlone t s.slc := rfl

@[simp] theorem declared_frame (t : Nat) (s : State) :
    (declared t s).pins = s.pins ∧ (declared t s).now = max s.now t ∧ (declared t s).spt = s.spt ∧
    (declared t s).pru = s.pru ∧ (declared t s).sdu = s.sdu ∧ (declared t s).evc = s.evc ∧
    (declared t s).inc = s.inc ∧ (declared t s).rsq = s.rsq ∧ (declared t s).esa = s.esa ∧
    (declared t s).cst = s.cst ∧ (declared t s).rqh = s.rqh ∧ (declared t s).cfl = s.cfl := by
  simp [declared]

theorem startAlone_of_listen {t : Nat} (hl : s.slc.membership = .listen) (he : s.slc.listenEnd = some t) :
    startAlone s = transmitAt t (readyTest (declared t s)) := by
  simp [startAlone, hl, he, declared]

theorem startAlone_of_no_timer (h : s.slc.membership ≠ .listen ∨ s.slc.listenEnd = none) : startAlone s = s := by
  unfold startAlone
  split
  · rename_i hl he
    rcases h with h | h
    · exact absurd hl h
    · simp [h] at he
  · rfl

end Sys2Proof.Machine
end

section
/-! START_ALONE (R35, R42, R43, R111). -/

namespace Sys2Proof.Machine

/-- Settles O48: slot 0 declared, the readiness test, and the transmission in own slot 0. -/
theorem startAloneDeclaresSlotZero : Obligations.StartAloneDeclaresSlotZero := by
  unfold Obligations.StartAloneDeclaresSlotZero
  refine ⟨?alone, fun s h => by rw [exec_eq_effect]; exact congrArg _ (startAlone_of_no_timer h)⟩
  intro s t own hl he ho
  have hu : effect .startAlone s = transmitAt t (readyTest (declared t s)) := startAlone_of_listen hl he
  obtain ⟨hnumber, hpeers, hmember, htx⟩ := declareAlone_keeps t s.slc
  obtain ⟨g, hg, hslot, hnominal, hidle, hrx⟩ := declareAlone_timing t s.slc
  have hg' : (readyTest (declared t s)).slc.timing = some g := by simpa using hg
  have ho' : ownSlot (readyTest (declared t s)) = some own := (ownSlot_congr (by simp)).trans ho
  have hon : onLine (declared t s) = true := (onLine_iff _).mpr (.inl hmember)
  have hlisten : (declareAlone t s.slc).listenEnd = none := by
    unfold declareAlone
    cases s.slc.rx <;> simp
  refine ⟨_, exec_eq_effect _ s, ?_⟩
  rw [hu]
  obtain ⟨closed, hclosed, hstays⟩ := transmitAt_timing t hg'
  refine ⟨by simp, by simpa using hmember, by simpa using hlisten, by simpa using hnumber, by simpa using hpeers,
    ⟨_, hclosed, hslot, hnominal, by simpa using hidle, ?reception⟩, ?elsewhere, ?own, ?ready, ?stays, by simp, by simp,
    by simp, by simp, by simp, by simp, by simp, by simp, by simp, by simp⟩
  case reception =>
    intro r hr
    obtain ⟨hin, hout⟩ := hrx r hr
    refine ⟨fun hlo hhi => ?_, by simpa using hout⟩
    obtain ⟨hrx', hnext, htaken⟩ := hin hlo hhi
    exact ⟨by simpa using hrx', hnext, hstays htaken⟩
  case elsewhere =>
    intro h0
    rw [transmitAt_of_not_own (.inr (.inr ⟨g, hg', .inl ?_⟩))]
    · simpa using htx
    · rw [ho', hslot]
      simpa using h0
  case own =>
    intro h0
    rw [transmitAt_of_own (by simpa using hmember) hg' ho' (hslot.trans h0.symm) hnominal, h0]
    exact ⟨_, rfl, rfl, rfl⟩
  case ready =>
    intro hc hlink hlock
    have htest : (declared t s).rsq.state = .charge ∧
        (declared t s).settings.linkReady ≤ (declared t s).spt.lastGood.link ∧
        (declared t s).pru.lock = .locked ∧ onLine (declared t s) = true := ⟨hc, hlink, hlock, hon⟩
    simp only [transmitAt_frame, readyTest_rsq]
    rw [if_pos htest]
    rfl
  case stays =>
    intro hno
    simp only [transmitAt_frame, readyTest_rsq]
    rw [if_neg]
    · rfl
    · rintro ⟨hc, hlink, hlock, -⟩
      rcases hno with h | h | h
      · exact h hc
      · exact absurd hlink (Nat.not_le.mpr h)
      · exact h hlock

end Sys2Proof.Machine
end

section
/-! SUPPORT. The frame end: SLC's own work step by step, and the work of the other blocks in any order
(R41, R44, R46 to R48, R50, R54, R55). -/

namespace Sys2Proof.Machine

variable {s : State}

/-! The slot that begins (R35, R36). -/

/-- The state at the nominal start of the next slot, before any work in it. -/
def slotOpened (g : Timing) (s : State) : State :=
  { s.moveTo g.next with slc := { s.slc with timing := some (nextSlot g) } }

theorem nextSlot_within {g : Timing} (h : g.slot < 11) :
    nextSlot g = { g with slot := g.slot + 1, nominal := g.next, next := g.next + 40000, taken := false } := by
  have hs : (g.slot + 1) % 12 = g.slot + 1 := by omega
  simp [nextSlot, hs, Config.slotLength]

theorem nextSlot_last {g : Timing} (h : g.slot = 11) :
    nextSlot g = { g with slot := 0, nominal := g.next, next := g.next + 40000, taken := false
                          lastFrameEnd := some g.next } := by
  simp [nextSlot, h, Config.slotLength]

theorem slotStarts_untimed (k : FrameTaking) (h : s.slc.timing = none) : slotStarts k s = s := by
  simp [slotStarts, h]

theorem slotStarts_within (k : FrameTaking) {g : Timing} (hg : s.slc.timing = some g) (h : g.slot < 11) :
    slotStarts k s = transmitAt g.next (slotOpened g s) := by
  have hs : (g.slot + 1) % 12 ≠ 0 := by omega
  simp [slotStarts, hg, hs, slotOpened]

theorem slotStarts_last (k : FrameTaking) {g : Timing} (hg : s.slc.timing = some g) (h : g.slot = 11) :
    slotStarts k s = frameEnd k g.next (slotOpened g s) := by
  simp [slotStarts, hg, h, slotOpened]

/-! SLC's steps 1 to 3: aging, the frame number, the own entry (R48, R50, R54). -/

/-- The state after the steps that come before the collision run. -/
def prepared (s : State) : State := fillOwn (stepNumber (stepAge (setDemand s)))

@[simp] theorem stepAge_fields (s : State) :
    (stepAge s).slc.membership = s.slc.membership ∧ (stepAge s).slc.timing = s.slc.timing ∧
    (stepAge s).slc.heardFirst = s.slc.heardFirst ∧ (stepAge s).slc.frameNumber = s.slc.frameNumber ∧
    (stepAge s).slc.collisionRun = s.slc.collisionRun ∧ (stepAge s).slc.collisionCount = s.slc.collisionCount ∧
    (stepAge s).slc.collisionMark = s.slc.collisionMark ∧ (stepAge s).slc.misalignRun = s.slc.misalignRun ∧
    (stepAge s).slc.candidate = s.slc.candidate ∧ (stepAge s).slc.duplicate = s.slc.duplicate := by
  simp [stepAge]

@[simp] theorem prepared_fields (s : State) :
    (prepared s).slc.membership = s.slc.membership ∧ (prepared s).slc.timing = s.slc.timing ∧
    (prepared s).slc.heardFirst = s.slc.heardFirst ∧ (prepared s).slc.collisionRun = s.slc.collisionRun ∧
    (prepared s).slc.collisionCount = s.slc.collisionCount ∧ (prepared s).slc.collisionMark = s.slc.collisionMark ∧
    (prepared s).slc.misalignRun = s.slc.misalignRun ∧ (prepared s).slc.candidate = s.slc.candidate ∧
    (prepared s).slc.duplicate = s.slc.duplicate ∧ (prepared s).cfl = s.cfl := by
  simp [prepared]

/-- SLC's work at a frame end before a change of membership is handed on (R55). -/
def slcSteps (t : Nat) (s : State) : State :=
  stepJoin (stepAlign s.slc.frameNumber t (stepCollision (prepared s)))

theorem frameEndSlc_eq (t : Nat) (s : State) :
    frameEndSlc t s = handMembership s.slc.membership (slcSteps t s) := rfl

theorem slcSteps_frame (t : Nat) (s : State) :
    (slcSteps t s).spt = s.spt ∧ (slcSteps t s).pru = s.pru ∧ (slcSteps t s).rsq = s.rsq ∧
    (slcSteps t s).cfl = s.cfl := by
  simp [slcSteps, prepared]

theorem frameEndSlc_slc (t : Nat) (s : State) : (frameEndSlc t s).slc = (slcSteps t s).slc := by
  simp [frameEndSlc_eq]

theorem frameEndSlc_inc (t : Nat) (s : State) : (frameEndSlc t s).inc = (setDemand s).inc := by
  simp [frameEndSlc]

theorem stepNumber_eq (s : State) :
    stepNumber s = { s with slc := { s.slc with frameNumber := (stepNumber s).slc.frameNumber } } := by
  unfold stepNumber
  split <;> rfl

theorem stepAge_peerEntry_own {j : Nat} (h : ownSlot s = some j) : peerEntry (stepAge s) j = peerEntry s j := by
  simp only [peerEntry, stepAge, agePeers, List.getD_eq_getElem?_getD, List.getElem?_mapIdx, h, if_true]
  simp

theorem fillOwn_peerEntry_own {j : Nat} (h : ownSlot s = some j) (hj : j < s.slc.peers.length) :
    peerEntry (fillOwn s) j = ownEntry s (peerEntry s j) := by
  simp [fillOwn, h, peerEntry, List.getD_eq_getElem?_getD, hj]

/-- The own entry after SLC's work: the station's own values, with the new demand and frame number (R50; log 16). -/
theorem frameEndSlc_own_entry (t : Nat) {j : Nat} (ho : ownSlot s = some j) (hl : s.slc.peers.length = 12) :
    peerEntry (frameEndSlc t s) j =
      ownEntry
        { s with
          inc := (setDemand s).inc, slc := { s.slc with frameNumber := (frameEndSlc t s).slc.frameNumber } }
        (peerEntry s j) := by
  obtain ⟨-, -, hj⟩ := (ownSlot_eq_some_iff s j).mp ho
  have hown : ownSlot (stepNumber (stepAge (setDemand s))) = some j := (ownSlot_congr (by simp)).trans ho
  have hlen : (stepNumber (stepAge (setDemand s))).slc.peers.length = 12 := by simp [stepAge, agePeers, hl]
  have hold : peerEntry (stepNumber (stepAge (setDemand s))) j = peerEntry s j := by
    rw [peerEntry_congr (s := stepAge (setDemand s)) (by simp), stepAge_peerEntry_own (s := setDemand s) ho]
    rfl
  rw [peerEntry_congr (frameEndSlc_peers s t), fillOwn_peerEntry_own hown (by rw [hlen]; exact hj), hold,
    frameEndSlc_frameNumber, stepNumber_eq]
  rfl

/-- Every other entry has aged (R54). -/
theorem frameEndSlc_peerEntry (t : Nat) {j : Nat} (h : ownSlot s ≠ some j) :
    peerEntry (frameEndSlc t s) j = (peerEntry s j).age := by
  have hown : ownSlot (stepNumber (stepAge (setDemand s))) ≠ some j := by
    rw [ownSlot_congr (s := s) (by simp)]
    exact h
  rw [peerEntry_congr (frameEndSlc_peers s t), fillOwn_peerEntry _ hown,
    peerEntry_congr (s := stepAge (setDemand s)) (by simp), stepAge_peerEntry (setDemand s) h]
  rfl

/-! The frame number (R48). -/

theorem PeerEntry.age_frameNumber {e : PeerEntry} (h : e.age.state = .live) : e.age.frameNumber = e.frameNumber := by
  revert h
  unfold PeerEntry.age
  (repeat' split) <;> simp [PeerEntry.absent]

/-- Off the line the number stands. -/
theorem frameEndSlc_frameNumber_off (t : Nat) (h : onLine s = false) :
    (frameEndSlc t s).slc.frameNumber = s.slc.frameNumber := by
  have h' : onLine (stepAge (setDemand s)) = false := (onLine_congr (by simp)).trans h
  simp [frameEndSlc_frameNumber, stepNumber, h']

/-- On it the number becomes the greatest of the own and those of the entries that are LIVE after the aging, each plus
one. -/
theorem frameEndSlc_frameNumber_on (t : Nat) (h : onLine s = true) :
    let plus := fun (x : Word) => min 4294967295 (x.toNat + 1)
    let live := fun (j : Nat) => j < 12 ∧ ownSlot s ≠ some j ∧ (peerEntry s j).age.state = .live
    let n := (frameEndSlc t s).slc.frameNumber.toNat
    plus s.slc.frameNumber ≤ n ∧ (∀ j, live j → plus (peerEntry s j).frameNumber ≤ n) ∧
    (n = plus s.slc.frameNumber ∨ ∃ j, live j ∧ n = plus (peerEntry s j).frameNumber) := by
  intro plus live n
  have h' : onLine (stepAge (setDemand s)) = true := (onLine_congr (by simp)).trans h
  have hn : (frameEndSlc t s).slc.frameNumber = nextFrameNumber (stepAge (setDemand s)) := by
    simp [frameEndSlc_frameNumber, stepNumber, h']
  have hplus : ∀ x : Word, (satInc x).toNat = plus x := toNat_satInc_word
  have hown : ownSlot (stepAge (setDemand s)) = ownSlot s := ownSlot_congr (by simp)
  have hentry : ∀ j, ownSlot s ≠ some j → peerEntry (stepAge (setDemand s)) j = (peerEntry s j).age :=
    fun j hj => stepAge_peerEntry (setDemand s) hj
  have hoffered : ∀ j x, offered (stepAge (setDemand s)) j = some x ↔
      (ownSlot s ≠ some j ∧ (peerEntry s j).age.state = .live) ∧ x = satInc (peerEntry s j).frameNumber := by
    intro j x
    unfold offered
    rw [hown]
    by_cases hj : ownSlot s = some j
    · simp [hj]
    · rw [hentry j hj]
      by_cases hlive : (peerEntry s j).age.state = .live
      · rw [if_pos ⟨hj, hlive⟩, PeerEntry.age_frameNumber hlive]
        simp [hj, hlive, eq_comm]
      · rw [if_neg (fun hc => hlive hc.2)]
        simp [hlive]
  obtain ⟨hfirst, hothers, hone⟩ := nextFrameNumber_spec (stepAge (setDemand s))
  rw [← hn] at hfirst hothers hone
  simp only [stepAge_fields, setDemand_frame] at hfirst hone
  refine ⟨by rw [← hplus]; exact hfirst, fun j hj => ?_, hone.imp (fun e => ?_) ?_⟩
  · obtain ⟨hlt, hown, hlive⟩ := hj
    rw [← hplus]
    exact hothers j _ hlt ((hoffered j _).mpr ⟨⟨hown, hlive⟩, rfl⟩)
  · rw [← hplus, ← e]
  · rintro ⟨j, hlt, hj⟩
    obtain ⟨⟨hown, hlive⟩, hx⟩ := (hoffered j _).mp hj
    exact ⟨j, ⟨hlt, hown, hlive⟩, by rw [← hplus, ← hx]⟩

/-! The collision run (R44). -/

theorem stepCollision_of_mark (hm : s.slc.membership = .member) (hc : s.slc.collisionMark = true) :
    stepCollision s = { s with slc := { s.slc with
      collisionRun := s.slc.collisionRun + 1
      collisionCount := satInc s.slc.collisionCount
      collisionMark := false
      membership := if s.slc.collisionRun + 1 = 3 then .mute else .member
      duplicate := s.slc.duplicate || s.slc.collisionRun + 1 == 3 } } := by
  simp [stepCollision, hm, hc]

theorem stepCollision_of_clear (hm : s.slc.membership = .member) (hc : s.slc.collisionMark = false) :
    stepCollision s = { s with slc := { s.slc with collisionRun := 0 } } := by
  simp [stepCollision, hm, hc]

theorem stepCollision_of_other (hm : s.slc.membership ≠ .member) : stepCollision s = s := by
  simp [stepCollision, hm]

/-- The collision run leaves a station on the line there, and off it. -/
theorem stepCollision_onLine (s : State) : onLine (stepCollision s) = onLine s := by
  by_cases hm : s.slc.membership = .member
  · cases hc : s.slc.collisionMark with
    | true =>
      rw [stepCollision_of_mark hm hc]
      simp only [onLine, hm]
      split <;> rfl
    | false => rw [stepCollision_of_clear hm hc]; rfl
  · rw [stepCollision_of_other hm]

/-! Membership after SLC's work (R41, R44). -/

theorem stepJoin_membership (s : State) :
    (stepJoin s).slc.membership =
      if s.slc.membership = .listen ∧ s.slc.heardFirst = true then .member else s.slc.membership := by
  unfold stepJoin
  split <;> rfl

theorem frameEndSlc_membership (t : Nat) (s : State) :
    (frameEndSlc t s).slc.membership =
      if (stepCollision (prepared s)).slc.membership = .listen ∧ s.slc.heardFirst = true then .member
      else (stepCollision (prepared s)).slc.membership := by
  simp [frameEndSlc_slc, slcSteps, stepJoin_membership]

theorem frameEndSlc_joins (t : Nat) (hl : s.slc.membership = .listen) (hf : s.slc.heardFirst = true) :
    (frameEndSlc t s).slc.membership = .member := by
  rw [frameEndSlc_membership, stepCollision_of_other (by simp [hl])]
  simp [hl, hf]

theorem frameEndSlc_of_mark (t : Nat) (hm : s.slc.membership = .member) (hc : s.slc.collisionMark = true) :
    (frameEndSlc t s).slc.collisionCount = satInc s.slc.collisionCount ∧
    (frameEndSlc t s).slc.collisionRun = s.slc.collisionRun + 1 ∧
    (s.slc.collisionRun = 2 →
      (frameEndSlc t s).slc.membership = .mute ∧ (frameEndSlc t s).slc.duplicate = true) ∧
    (s.slc.collisionRun < 2 →
      (frameEndSlc t s).slc.membership = .member ∧ (frameEndSlc t s).slc.duplicate = s.slc.duplicate) := by
  have hstep := stepCollision_of_mark (s := prepared s) (by simpa using hm) (by simpa using hc)
  rw [frameEndSlc_membership, frameEndSlc_slc]
  simp only [slcSteps, stepJoin_fields, stepAlign_fields]
  rw [hstep]
  refine ⟨by simp, by simp, fun hr => by simp [hr], fun hr => ?_⟩
  have hne : s.slc.collisionRun ≠ 2 := by omega
  simp [hne]

theorem frameEndSlc_of_clear (t : Nat) (hm : s.slc.membership = .member) (hc : s.slc.collisionMark = false) :
    (frameEndSlc t s).slc.membership = .member ∧ (frameEndSlc t s).slc.collisionRun = 0 := by
  have hstep := stepCollision_of_clear (s := prepared s) (by simpa using hm) (by simpa using hc)
  rw [frameEndSlc_membership, frameEndSlc_slc]
  simp only [slcSteps, stepJoin_fields, stepAlign_fields]
  rw [hstep]
  simp [hm]

/-! The misalignment run and the realignment (R46, R47). -/

theorem candidateWins_iff (c : Candidate) (n : Word) (own : Option Nat) :
    candidateWins c n own = true ↔
      n < c.frameNumber ∨ (c.frameNumber = n ∧ ∃ j, own = some j ∧ c.slot < j) := by
  cases own <;> simp [candidateWins]

/-- The state that the alignment step starts from has the line's own alignment fields. -/
theorem frameEndSlc_align (t : Nat) (s : State) :
    (frameEndSlc t s).slc.misalignRun =
      (stepAlign s.slc.frameNumber t (stepCollision (prepared s))).slc.misalignRun ∧
    (frameEndSlc t s).slc.candidate =
      (stepAlign s.slc.frameNumber t (stepCollision (prepared s))).slc.candidate ∧
    (frameEndSlc t s).slc.timing = (stepAlign s.slc.frameNumber t (stepCollision (prepared s))).slc.timing := by
  simp [frameEndSlc_slc, slcSteps]

theorem onLine_before_align (s : State) : onLine (stepCollision (prepared s)) = onLine s :=
  (stepCollision_onLine _).trans (onLine_congr (by simp))

theorem frameEndSlc_align_off (t : Nat) (h : onLine s = false) :
    (frameEndSlc t s).slc.misalignRun = s.slc.misalignRun ∧ (frameEndSlc t s).slc.candidate = s.slc.candidate ∧
    (frameEndSlc t s).slc.timing = s.slc.timing := by
  obtain ⟨hrun, hcand, htiming⟩ := frameEndSlc_align t s
  rw [hrun, hcand, htiming]
  simp [stepAlign, onLine_before_align, h]

theorem frameEndSlc_align_none (t : Nat) (h : onLine s = true) (hc : s.slc.candidate = none) :
    (frameEndSlc t s).slc.misalignRun = 0 ∧ (frameEndSlc t s).slc.candidate = none ∧
    (frameEndSlc t s).slc.timing = s.slc.timing := by
  obtain ⟨hrun, hcand, htiming⟩ := frameEndSlc_align t s
  rw [hrun, hcand, htiming]
  simp [stepAlign, onLine_before_align, h, hc]

/-- A candidate is settled: the grid is laid from it when it wins at a run of 2, and the run stands up by one else. -/
theorem frameEndSlc_align_some (t : Nat) {c : Candidate} (h : onLine s = true) (hc : s.slc.candidate = some c) :
    (frameEndSlc t s).slc.candidate = none ∧
    (min 2 (s.slc.misalignRun + 1) < 2 ∨ candidateWins c s.slc.frameNumber (ownSlot s) = false →
      (frameEndSlc t s).slc.misalignRun = min 2 (s.slc.misalignRun + 1) ∧
      (frameEndSlc t s).slc.timing = s.slc.timing) ∧
    (min 2 (s.slc.misalignRun + 1) = 2 → candidateWins c s.slc.frameNumber (ownSlot s) = true →
      (frameEndSlc t s).slc.misalignRun = 0 ∧
      (frameEndSlc t s).slc.timing = some (gridAt c.start c.slot t false (lastFrameEnd s.slc.timing))) := by
  obtain ⟨hrun, hcand, htiming⟩ := frameEndSlc_align t s
  have hown : ownSlot (stepCollision (prepared s)) = ownSlot s := ownSlot_congr (by simp)
  rw [hrun, hcand, htiming]
  simp only [stepAlign, onLine_before_align, h, if_true, stepCollision_fields, prepared_fields, hc, hown]
  split
  · rename_i hwins
    obtain ⟨htwo, hwins⟩ := hwins
    refine ⟨rfl, fun hno => ?_, fun _ _ => ⟨rfl, rfl⟩⟩
    rcases hno with hlt | hloses
    · omega
    · rw [hwins] at hloses
      cases hloses
  · rename_i hno
    refine ⟨rfl, fun _ => ⟨rfl, ?_⟩, fun htwo hwins => absurd ⟨htwo, hwins⟩ hno⟩
    simp

/-! A change of membership handed on (R111). -/

theorem frameEndSlc_rsq_of_same (t : Nat) (h : (frameEndSlc t s).slc.membership = s.slc.membership) :
    (frameEndSlc t s).rsq = s.rsq := by
  obtain ⟨-, -, hrsq, -⟩ := slcSteps_frame t s
  rw [frameEndSlc_slc] at h
  rw [frameEndSlc_eq, handMembership, if_pos h, hrsq]

theorem frameEndSlc_rsq_of_change (t : Nat) (h : (frameEndSlc t s).slc.membership ≠ s.slc.membership) :
    (frameEndSlc t s).rsq = { s.rsq with
      state := if s.rsq.state = .charge ∧ s.settings.linkReady ≤ s.spt.lastGood.link ∧ s.pru.lock = .locked ∧
        onLine (frameEndSlc t s) = true then .ready else s.rsq.state } := by
  obtain ⟨hspt, hpru, hrsq, hcfl⟩ := slcSteps_frame t s
  have hon : onLine (frameEndSlc t s) = onLine (slcSteps t s) := onLine_congr (by rw [frameEndSlc_slc])
  rw [frameEndSlc_slc] at h
  rw [hon, frameEndSlc_eq, handMembership, if_neg h, readyTest_rsq]
  simp only [State.settings, hrsq, hcfl, hspt, hpru]

end Sys2Proof.Machine
end

section
/-! SLOT_START (R34 to R36, R43, R49, R50, R55, R111). -/

namespace Sys2Proof.Machine

variable {s : State}

theorem exec_slotStart (k : FrameTaking) (s : State) : exec (.slotStart k) s = .next (slotStarts k s) := rfl

/-- The frame end in the order taken when the operand names none. -/
theorem frameEnd_default (t : Nat) (s : State) :
    frameEnd {} t s =
      transmitAt t (follow (windowStep false false (exhaustTest (allocate (frameEndSlc t s))))) := by
  have order : takingOrder (withPrerequisites []) frameParts =
      [.allocate, .exhaust, .classify, .follow, .transmit] := by decide
  simp only [frameEnd, order, List.foldl_cons, List.foldl_nil, framePart]

/-- A request executed within the frame end follows the following (R158). -/
theorem frameEnd_execute (t : Nat) (s : State) :
    frameEnd { order := [.execute] } t s =
      transmitAt t (windowStep false false (exhaustTest (allocate (executeStanding (follow (frameEndSlc t s)))))) := by
  have order : takingOrder (withPrerequisites [.execute]) frameParts =
      [.follow, .execute, .allocate, .exhaust, .classify, .transmit] := by decide
  simp only [frameEnd, order, List.foldl_cons, List.foldl_nil, framePart]

theorem slotOpened_within {g : Timing} (h : g.slot < 11) (s : State) :
    slotOpened g s = { s with
      now := max s.now g.next
      slc := { s.slc with
        timing := some
          { g with slot := g.slot + 1, nominal := g.next, next := g.next + 40000, taken := false } } } := by
  rw [slotOpened, nextSlot_within h]
  rfl

theorem slotOpened_last {g : Timing} (h : g.slot = 11) (s : State) :
    slotOpened g s = { s with
      now := max s.now g.next
      slc := { s.slc with
        timing := some
          { g with
            slot := 0, nominal := g.next, next := g.next + 40000, taken := false
            lastFrameEnd := some g.next } } } := by
  rw [slotOpened, nextSlot_last h]
  rfl

/-- RSQ's state is all of it that SLC's work at a frame end can change (R111). -/
theorem frameEndSlc_rsq (t : Nat) (s : State) :
    (frameEndSlc t s).rsq = { s.rsq with state := (frameEndSlc t s).rsq.state } := by
  by_cases h : (frameEndSlc t s).slc.membership = s.slc.membership
  · rw [frameEndSlc_rsq_of_same t h]
  · rw [frameEndSlc_rsq_of_change t h]

/-- Settles O49: a slot within the frame, then the frame end as SLC's work and the order of the rest. -/
theorem slotStartOpensSlot : Obligations.SlotStartOpensSlot := by
  unfold Obligations.SlotStartOpensSlot
  refine ⟨fun k s hg => by rw [exec_slotStart, slotStarts_untimed k hg], ?within, ?last, ?own⟩
  case within =>
    intro k s g hg hlt opened s'
    have hopen : slotOpened g s = s' := slotOpened_within hlt s
    rw [exec_slotStart, slotStarts_within k hg hlt, hopen]
    refine ⟨fun hno => ?_, fun hm ho => ?_⟩
    · rw [transmitAt_of_not_own]
      exact hno.imp id fun ho => .inr ⟨opened, rfl, .inl ho⟩
    · rw [transmitAt_of_own (s := s') (g := opened) (own := g.slot + 1) hm rfl ho rfl rfl]
  case last =>
    intro s g hg hslot opened s0 s1
    have hopen : slotOpened g s = s0 := slotOpened_last hslot s
    have hs1 : frameEndSlc g.next s0 = s1 := rfl
    have hinc := frameEndSlc_inc g.next s0
    have hrsq := frameEndSlc_rsq g.next s0
    have hsame := frameEndSlc_rsq_of_same (s := s0) g.next
    have hchange := frameEndSlc_rsq_of_change (s := s0) g.next
    have hown := fun j => frameEndSlc_own_entry (s := s0) g.next (j := j)
    have hframe := frameEndSlc_frame s0 g.next
    clear_value s1
    rw [hs1] at hinc hrsq hframe
    simp only [hs1] at hsame hchange hown
    refine ⟨?_, ?_, ?frame, hsame, fun hne => by rw [hchange hne], fun j ho hl => ?_⟩
    · rw [exec_slotStart, slotStarts_last {} hg hslot, hopen, frameEnd_default, hs1]
    · rw [exec_slotStart, slotStarts_last _ hg hslot, hopen, frameEnd_execute, hs1]
    case frame =>
      obtain ⟨pins, now, spt, pru, sdu, evc, esa, cst, rqh, cfl, pending⟩ := hframe
      exact state_ext pins now spt pru sdu evc hinc hrsq esa rfl cst rqh cfl pending
    · rw [hown j ho hl, hinc]
      rfl
  case own =>
    intro t s
    exact ⟨fun g own hm hg ho hslot ht => transmitAt_of_own hm hg ho hslot ht, transmitAt_of_not_own⟩

end Sys2Proof.Machine
end

section
/-! The frame end in every order (R36, R41, R44, R46 to R48, R54, R55, R58, R59, R67, R69). -/

namespace Sys2Proof.Machine

variable (s : State)

/-! INC's shares: what EVC's and RSQ's work at a frame end leaves of it (R67, R68, R69). -/

/-- The own demand, the demand window and the grant ratio stand. -/
def SharesStand (s u : State) : Prop :=
  u.inc.demand = s.inc.demand ∧ u.inc.pDem = s.inc.pDem ∧ u.inc.nDem = s.inc.nDem ∧ u.inc.ratio = s.inc.ratio

theorem SharesStand.trans {s u v : State} (h : SharesStand s u) (h' : SharesStand u v) : SharesStand s v := by
  obtain ⟨hd, hp, hn, hr⟩ := h
  obtain ⟨hd', hp', hn', hr'⟩ := h'
  exact ⟨hd'.trans hd, hp'.trans hp, hn'.trans hn, hr'.trans hr⟩

theorem SharesStand.of_inc {s u : State} (h : u.inc = s.inc) : SharesStand s u := by
  simp [SharesStand, h]

theorem exitInject_shares (c : EndCause) : SharesStand s (exitInject c s) := by
  unfold exitInject
  split <;> exact ⟨rfl, rfl, rfl, rfl⟩

theorem exhaustTest_shares : SharesStand s (exhaustTest s) := by
  unfold exhaustTest
  split
  · exact exitInject_shares s _
  · exact .of_inc rfl

theorem withdraw_shares (m : TableMethod) : SharesStand s (withdraw m s) := by
  cases m with
  | withdraw => exact .trans (.of_inc rfl) (exitInject_shares _ _)
  | presag => exact .of_inc rfl
  | inphase => exact .of_inc rfl

theorem compareLimit_shares (b : Bool) : SharesStand s (compareLimit b s) := by
  unfold compareLimit
  split
  · split
    · split
      · exact .of_inc rfl
      · exact exitInject_shares s _
    · exact .of_inc rfl
  · exact .of_inc rfl

theorem putLimit_shares (n : Nat) (b : Bool) : SharesStand s (putLimit n b s) := by
  unfold putLimit
  split
  · exact .of_inc rfl
  · exact .trans (.of_inc rfl) (compareLimit_shares _ b)

theorem settleMethod_shares (m : TableMethod) : SharesStand s (settleMethod m s) := by
  unfold settleMethod
  (repeat' split) <;> exact ⟨rfl, rfl, rfl, rfl⟩

theorem applyAction_shares (b b' : Bool) (e : Option TableEntry) : SharesStand s (applyAction b b' e s) := by
  unfold applyAction
  dsimp only
  generalize actionMethod s e = m
  generalize (e.map TableEntry.limit).getD 0 = n
  have settled : SharesStand s (putOverride (e.bind TableEntry.override) (settleMethod m s)) :=
    (settleMethod_shares s m).trans (.of_inc rfl)
  generalize putOverride (e.bind TableEntry.override) (settleMethod m s) = s1 at settled
  have acted : SharesStand s (if b then withdraw m (putLimit n b' s1) else putLimit n b' (withdraw m s1)) := by
    split
    · exact settled.trans ((putLimit_shares _ _ _).trans (withdraw_shares _ _))
    · exact settled.trans ((withdraw_shares _ _).trans (putLimit_shares _ _ _))
  generalize (if b then withdraw m (putLimit n b' s1) else putLimit n b' (withdraw m s1)) = s2 at acted
  split
  · exact acted
  · exact acted.trans (.of_inc (by simp))

theorem windowStep_shares (b b' : Bool) : SharesStand s (windowStep b b' s) := by
  unfold windowStep
  dsimp only
  (repeat' split)
  · exact .trans (.of_inc rfl) (applyAction_shares _ _ _ _)
  · exact .trans (.of_inc rfl) (applyAction_shares _ _ _ _)
  · exact .of_inc rfl
  · exact .of_inc rfl

/-- Every part of the frame end but the allocation leaves the shares and the allocation (R55, R67). -/
theorem framePart_shares (k : FrameTaking) (t : Nat) {p : FramePart} (h : p ≠ .allocate) :
    SharesStand s (framePart k t p s) ∧ (framePart k t p s).esa = s.esa := by
  cases p with
  | allocate => exact absurd rfl h
  | exhaust => exact ⟨exhaustTest_shares s, by simp [framePart]⟩
  | classify => exact ⟨windowStep_shares s _ _, by simp [framePart]⟩
  | follow => exact ⟨.of_inc (by simp [framePart]), by simp [framePart]⟩
  | transmit => exact ⟨.of_inc (by simp [framePart]), by simp [framePart]⟩
  | execute => exact ⟨.of_inc (by simp [framePart]), by simp [framePart]⟩

/-! The allocation, taken once in every order (R58, R59, R67). -/

/-- Parts of which one is taken once: what the others keep before it, and what they keep after it. -/
theorem foldl_once {α σ : Type} [DecidableEq α] (f : σ → α → σ) (P Q : σ → Prop) (a : α)
    (before : ∀ s x, x ≠ a → P s → P (f s x)) (reach : ∀ s, P s → Q (f s a))
    (after : ∀ s x, x ≠ a → Q s → Q (f s x)) {l : List α} (hl : l.count a = 1) {s : σ} (hs : P s) :
    Q (l.foldl f s) := by
  have held : ∀ (l : List α) (s : σ), a ∉ l → Q s → Q (l.foldl f s) := by
    intro l
    induction l with
    | nil => exact fun s _ hq => hq
    | cons x l ih =>
      intro s hn hq
      rw [List.mem_cons, not_or] at hn
      obtain ⟨hx, hrest⟩ := hn
      exact ih _ hrest (after s x (Ne.symm hx) hq)
  induction l generalizing s with
  | nil => simp at hl
  | cons x l ih =>
    by_cases hx : x = a
    · subst hx
      refine held l _ ?_ (reach s hs)
      rw [← List.count_eq_zero]
      simpa using hl
    · exact ih (by simpa [hx] using hl) (before s x hx hs)

/-- At a frame end ESA allocates once from the budget, and INC ends it with the new ratio and the demand just set. -/
theorem frameEnd_allocation (k : FrameTaking) (t : Nat) :
    (frameEnd k t s).esa.budget = budgetOf s.settings s.spt.lastGood.bus ∧
    (frameEnd k t s).esa.zeroCount = zeroCountAfter (budgetOf s.settings s.spt.lastGood.bus) s.esa.zeroCount ∧
    (frameEnd k t s).inc.demand = (setDemand s).inc.demand ∧ (frameEnd k t s).inc.pDem = 0 ∧
    (frameEnd k t s).inc.nDem = 0 ∧ (frameEnd k t s).inc.ratio = (frameEnd k t s).esa.ratio := by
  have once : (takingOrder (withPrerequisites k.order) frameParts).count .allocate = 1 :=
    count_takingOrder _ _ (by decide)
  refine foldl_once (fun u p => framePart k t p u)
    (fun u => u.cfl = s.cfl ∧ u.spt = s.spt ∧ u.esa = s.esa ∧ u.inc.demand = (setDemand s).inc.demand ∧
      u.inc.pDem = 0 ∧ u.inc.nDem = 0)
    (fun u => u.esa.budget = budgetOf s.settings s.spt.lastGood.bus ∧
      u.esa.zeroCount = zeroCountAfter (budgetOf s.settings s.spt.lastGood.bus) s.esa.zeroCount ∧
      u.inc.demand = (setDemand s).inc.demand ∧ u.inc.pDem = 0 ∧ u.inc.nDem = 0 ∧ u.inc.ratio = u.esa.ratio)
    .allocate ?before ?reach ?after once ?start
  case start =>
    rw [frameEndSlc_inc]
    exact ⟨by simp, by simp, by simp, rfl, rfl, rfl⟩
  case before =>
    rintro u p hp ⟨hcfl, hspt, hesa, hd, hpd, hnd⟩
    obtain ⟨⟨hd', hpd', hnd', -⟩, hesa'⟩ := framePart_shares u k t hp
    exact ⟨by simpa using hcfl, by simpa using hspt, hesa'.trans hesa, hd'.trans hd, hpd'.trans hpd, hnd'.trans hnd⟩
  case reach =>
    rintro u ⟨hcfl, hspt, hesa, hd, hpd, hnd⟩
    simp only [framePart, allocate, handRatio, allocation, State.settings, hcfl, hspt, hesa]
    exact ⟨trivial, trivial, hd, hpd, hnd, trivial⟩
  case after =>
    rintro u p hp ⟨hb, hz, hd, hpd, hnd, hr⟩
    obtain ⟨⟨hd', hpd', hnd', hr'⟩, hesa'⟩ := framePart_shares u k t hp
    rw [hesa']
    exact ⟨hb, hz, hd'.trans hd, hpd'.trans hpd, hnd'.trans hnd, hr'.trans hr⟩

/-! The timing through the other blocks' work. -/

/-- The other blocks' work leaves the timing that SLC has settled, the window of the slot apart. -/
theorem frameEnd_timing (k : FrameTaking) (t : Nat) {g : Timing} (h : (frameEndSlc t s).slc.timing = some g) :
    ∃ closed, (frameEnd k t s).slc.timing = some { g with taken := closed } := by
  refine frameEnd_induct s (fun u => ∃ closed, u.slc.timing = some { g with taken := closed }) k t ⟨g.taken, h⟩ ?_
  rintro p u ⟨closed, hu⟩
  cases p with
  | transmit =>
    obtain ⟨closed', hu', -⟩ := transmitAt_timing t hu
    exact ⟨closed', hu'⟩
  | allocate => exact ⟨closed, by simpa [framePart] using hu⟩
  | exhaust => exact ⟨closed, by simpa [framePart] using hu⟩
  | classify => exact ⟨closed, by simpa [framePart] using hu⟩
  | follow => exact ⟨closed, by simpa [framePart] using hu⟩
  | execute => exact ⟨closed, by simpa [framePart] using hu⟩

/-- The aging of an entry, by its mark, its state and its count (R54). -/
theorem PeerEntry.age_spec (e : PeerEntry) :
    (e.heard = true → e.age = { e with heard := false }) ∧
    (e.heard = false → e.state = .live → e.age = { e with state := .held, missed := 1 }) ∧
    (e.heard = false → e.state = .held → e.missed < 4 → e.age = { e with missed := e.missed + 1 }) ∧
    (e.heard = false → e.state = .held → 4 ≤ e.missed → e.age = PeerEntry.absent) ∧
    (e.heard = false → e.state = .absent → e.age = PeerEntry.absent) := by
  refine ⟨fun h => ?_, fun h hs => ?_, fun h hs hm => ?_, fun h hs hm => ?_, fun h hs => ?_⟩
  · simp [PeerEntry.age, h]
  · simp [PeerEntry.age, h, hs]
  · simp [PeerEntry.age, h, hs, Nat.succ_le_of_lt hm]
  · simp [PeerEntry.age, h, hs, Nat.not_le.mpr (Nat.lt_succ_of_le hm)]
  · simp [PeerEntry.age, h, hs]

/-- The peer table after the frame end: every entry but the own one has aged (R54). -/
theorem frameEnd_peerEntry (k : FrameTaking) (t : Nat) {j : Nat} (h : ownSlot s ≠ some j) :
    peerEntry (frameEnd k t s) j = (peerEntry s j).age := by
  rw [peerEntry_congr (s := frameEndSlc t s) (by simp), frameEndSlc_peerEntry t h]

/-- The timing of a grid that stands through the frame end. -/
theorem frameEnd_grid_stands (k : FrameTaking) (t : Nat) {g : Timing} (hg : s.slc.timing = some g)
    (h : (frameEndSlc t s).slc.timing = s.slc.timing) :
    ∃ x, (frameEnd k t s).slc.timing = some x ∧ x.slot = g.slot ∧ x.nominal = g.nominal ∧ x.next = g.next ∧
      x.lastFrameEnd = g.lastFrameEnd ∧ x.gridStart = g.gridStart := by
  obtain ⟨closed, hx⟩ := frameEnd_timing s k t (h.trans hg)
  exact ⟨_, hx, rfl, rfl, rfl, rfl, rfl⟩

/-- The timing of a grid that is laid from a candidate. -/
theorem frameEnd_grid_laid (k : FrameTaking) (t : Nat) {c : Candidate} {last : Option Nat}
    (h : (frameEndSlc t s).slc.timing = some (gridAt c.start c.slot t false last)) :
    ∃ x, (frameEnd k t s).slc.timing = some x ∧ x.slot = (c.slot + (t - c.start) / 40000) % 12 ∧
      x.nominal = c.start + (t - c.start) / 40000 * 40000 ∧
      x.next = c.start + ((t - c.start) / 40000 + 1) * 40000 ∧ x.lastFrameEnd = last ∧ x.gridStart = c.start := by
  obtain ⟨closed, hx⟩ := frameEnd_timing s k t h
  exact ⟨_, hx, rfl, rfl, rfl, rfl, rfl⟩

/-- Settles O50: SLC's work by its steps, and ESA's and INC's in every order. -/
theorem frameEndWork : Obligations.FrameEndWork := by
  unfold Obligations.FrameEndWork
  refine ⟨fun k s g hg hslot => ?_, PeerEntry.age_spec⟩
  refine ⟨frameEnd k g.next (slotOpened g s), by rw [exec_slotStart, slotStarts_last k hg hslot], ?_⟩
  have hopen : (slotOpened g s).slc.timing = some (nextSlot g) := rfl
  rw [nextSlot_last hslot] at hopen
  obtain ⟨hbudget, hzero, hdemand, hpDem, hnDem, hratio⟩ := frameEnd_allocation (slotOpened g s) k g.next
  obtain ⟨pins, now, spt, pru, sdu, cfl, -⟩ := frameEnd_frame (slotOpened g s) k g.next
  have number_on := frameEndSlc_frameNumber_on (s := slotOpened g s) g.next
  have number_off := frameEndSlc_frameNumber_off (s := slotOpened g s) g.next
  have joins := frameEndSlc_joins (s := slotOpened g s) g.next
  have marked := frameEndSlc_of_mark (s := slotOpened g s) g.next
  have clear := frameEndSlc_of_clear (s := slotOpened g s) g.next
  have align_off := frameEndSlc_align_off (s := slotOpened g s) g.next
  have align_none := frameEndSlc_align_none (s := slotOpened g s) g.next
  have align_some := fun c => frameEndSlc_align_some (s := slotOpened g s) g.next (c := c)
  have stands := frameEnd_grid_stands (slotOpened g s) k g.next hopen
  have laid := fun c => frameEnd_grid_laid (slotOpened g s) k g.next (c := c) (last := some g.next)
  simp only [frameEnd_fields]
  refine ⟨now, hbudget, hzero, hdemand, hpDem, hnDem, hratio, number_on, number_off,
    fun j hj => frameEnd_peerEntry (slotOpened g s) k g.next hj, joins, marked, clear,
    ⟨fun off => ?off, fun on => ?settled, fun on hc => ?idle, fun c on hc hno => ?counted,
      fun c on hc htwo hw => ?won⟩, pins, spt, pru, sdu, cfl⟩
  case off =>
    obtain ⟨hrun, hcand, htiming⟩ := align_off off
    exact ⟨hrun, hcand, stands htiming⟩
  case settled =>
    cases hc : s.slc.candidate with
    | none =>
      obtain ⟨-, hcand, -⟩ := align_none on hc
      exact hcand
    | some c =>
      obtain ⟨hcand, -⟩ := align_some c on hc
      exact hcand
  case idle =>
    obtain ⟨hrun, -, htiming⟩ := align_none on hc
    exact ⟨hrun, stands htiming⟩
  case counted =>
    obtain ⟨-, hcounted, -⟩ := align_some c on hc
    obtain ⟨hrun, htiming⟩ := hcounted (hno.imp id fun hloses =>
      Bool.eq_false_iff.mpr fun hwins => hloses ((candidateWins_iff c _ _).mp hwins))
    exact ⟨hrun, stands htiming⟩
  case won =>
    obtain ⟨-, -, hwon⟩ := align_some c on hc
    obtain ⟨hrun, htiming⟩ := hwon htwo ((candidateWins_iff c _ _).mpr hw)
    rw [hopen] at htiming
    exact ⟨hrun, laid c htiming⟩

end Sys2Proof.Machine
end

section
/-! SUPPORT. A record's words read back from the capture memory (R151, R179, R181). -/

namespace Sys2Proof.Machine

/-- A word is what its four bytes spell (R179). -/
theorem wordAt_wordBytes (w : Word) : wordAt (wordBytes w) 0 = w := by
  have spelt : wordAt (wordBytes w) 0 =
      (w.extractLsb' 24 8 ++ w.extractLsb' 16 8) ++ (w.extractLsb' 8 8 ++ w.extractLsb' 0 8) := rfl
  have high : w.extractLsb' 24 8 ++ w.extractLsb' 16 8 = w.extractLsb' 16 16 :=
    BitVec.extractLsb'_append_extractLsb'_eq_extractLsb' rfl
  have low : w.extractLsb' 8 8 ++ w.extractLsb' 0 8 = w.extractLsb' 0 16 :=
    BitVec.extractLsb'_append_extractLsb'_eq_extractLsb' rfl
  rw [spelt, high, low]
  exact BitVec.extractLsb'_append_extractLsb' (w := 16) (len := 16)

namespace Memory

theorem writeBytes_append (m : List Host.Cell) (a : Nat) (xs ys : List Byte) :
    writeBytes m a (xs ++ ys) = writeBytes (writeBytes m a xs) (a + xs.length) ys := by
  induction xs generalizing m a with
  | nil => rfl
  | cons x xs ih =>
    simp only [List.cons_append, writeBytes, List.length_cons, ih]
    congr 1
    omega

/-- A word written is the word read, whatever is written above it. -/
theorem readWord_writeBytes_word {m : List Host.Cell} (hm : wf m = true) (a : Nat) (w : Word) (ys : List Byte) :
    readWord (writeBytes m a (wordBytes w ++ ys)) a = w := by
  have byte : ∀ n (h : n < 4), read (writeBytes m a (wordBytes w ++ ys)) (a + n) = (wordBytes w)[n] := by
    intro n h
    rw [read_writeBytes_inside hm a _ (by simp [wordBytes]; omega), List.getElem_append_left (by exact h)]
  have bytes : readBytes (writeBytes m a (wordBytes w ++ ys)) a 4 = wordBytes w := by
    simp only [readBytes, Nat.add_assoc]
    rw [byte 1 (by decide), byte 2 (by decide), byte 3 (by decide)]
    have := byte 0 (by decide)
    rw [Nat.add_zero] at this
    rw [this]
    rfl
  rw [readWord, bytes, wordAt_wordBytes]

/-- The n-th word of a sequence written is the word read at its place. -/
theorem readWord_writeBytes_words {m : List Host.Cell} (hm : wf m = true) (a : Nat) (ws : List Word) {n : Nat}
    (hn : n < ws.length) : readWord (writeBytes m a (ws.flatMap wordBytes)) (a + 4 * n) = ws[n] := by
  induction ws generalizing m a n with
  | nil => simp at hn
  | cons w ws ih =>
    rw [List.flatMap_cons]
    cases n with
    | zero => exact readWord_writeBytes_word hm a w _
    | succ n =>
      have hlen : (wordBytes w).length = 4 := rfl
      have haddr : a + 4 * (n + 1) = a + 4 + 4 * n := by omega
      rw [writeBytes_append, hlen, haddr]
      exact ih (wf_writeBytes hm a _) (a + 4) (by simpa using hn)

end Memory

/-- A summary has sixteen words (R181). -/
theorem length_summaryWords (m : Summary) : (summaryWords m).length = 16 := rfl

theorem length_wordBytes_flatMap (ws : List Word) : (ws.flatMap wordBytes).length = 4 * ws.length := by
  induction ws with
  | nil => rfl
  | cons w ws ih =>
    have hlen : (wordBytes w).length = 4 := rfl
    simp only [List.flatMap_cons, List.length_append, hlen, ih, List.length_cons]
    omega

/-- The words of a filed record's summary are the summary's (R151, R181). -/
theorem recordWord_of_filed {l : Layout} {m : Summary} {c c' : Cst} (hm : Memory.wf c.mem = true)
    (hc : c'.mem = (fileRecord l m c).mem) {n : Nat} (hn : n < 16) :
    recordWord c' l c.fill n = (summaryWords m).getD n 0 := by
  have hlen : n < (summaryWords m).length := hn
  rw [recordWord, if_pos hn, hc, fileRecord, Memory.readWord_writeBytes_words hm _ _ hlen,
    List.getD_eq_getElem _ _ hlen]

/-- Filing a record writes its slot's summary area and no other byte (log 23). -/
theorem read_fileRecord_outside (l : Layout) (m : Summary) (c : Cst) {a : Nat}
    (ha : a < summaryAddr c.fill ∨ summaryAddr c.fill + 64 ≤ a) :
    Memory.read (fileRecord l m c).mem a = Memory.read c.mem a := by
  rw [fileRecord, Memory.read_writeBytes_outside]
  rw [length_wordBytes_flatMap, length_summaryWords]
  exact ha

end Sys2Proof.Machine
end

section
/-! The soft reset (R7, R57, R132, R134, R153, R168, R177, R178). -/

namespace Sys2Proof.Machine

variable {s : State}

/-! The conditions (R132). -/

theorem inTail_eq_false_iff (c : Cst) : inTail c = false ↔ ∀ f, c.filling = some f → f.tail = none := by
  unfold inTail
  cases c.filling <;> simp

theorem softResetReady_iff (s : State) : softResetReady s = true ↔
    s.rsq.quiesce = true ∧ s.rsq.state ≠ .inject ∧ s.rsq.state ≠ .release ∧
    (∀ c, s.cst.filling = some c → c.tail = none) ∧ (s.slc.membership = .member → s.rsq.sentSince = true) := by
  have hevent : eventActive s = false ↔ s.rsq.state ≠ .inject ∧ s.rsq.state ≠ .release := by
    rw [← Bool.not_eq_true, eventActive_iff, not_or]
  have hsent : (s.slc.membership != .member || s.rsq.sentSince) = true ↔
      (s.slc.membership = .member → s.rsq.sentSince = true) := by
    by_cases hm : s.slc.membership = .member <;> simp [hm]
  simp only [softResetReady, Bool.and_eq_true, Bool.not_eq_true', hevent, inTail_eq_false_iff, hsent, and_assoc]

/-! CST at a soft reset (R153). -/

theorem captureSoftReset_of_idle (h : s.cst.filling = none) :
    captureSoftReset s = { s.cst with queued := none, history := zeroHistory } := by
  unfold captureSoftReset
  cases s.cst.layout <;> simp [h]

/-- A capture in fill is filed with the truncated summary of a test capture. -/
theorem captureSoftReset_of_filling {l : Layout} {f : Capture} (hl : s.cst.layout = some l)
    (hf : s.cst.filling = some f) :
    (captureSoftReset s).mem = (fileRecord l (testSummary s f true) s.cst).mem ∧
    (captureSoftReset s).full = s.cst.full + 1 ∧ (captureSoftReset s).fill = (s.cst.fill + 1) % l.slots ∧
    (captureSoftReset s).filling = none := by
  simp [captureSoftReset, hl, hf]

/-- Layout, oldest pointer and missed count stand. -/
theorem captureSoftReset_frame (s : State) :
    captureSoftReset s = { s.cst with
      mem := (captureSoftReset s).mem, full := (captureSoftReset s).full, fill := (captureSoftReset s).fill
      filling := (captureSoftReset s).filling, history := zeroHistory, queued := none } := by
  unfold captureSoftReset
  split
  · simp only [fileRecord]
  · rfl

/-! The whole part after a soft reset (R178). -/

theorem carryOutReset_eq (straps : BitVec 4) (s : State) :
    carryOutReset straps s = { State.reset with
      pins := s.pins
      now := s.now
      pending := s.pending
      spt := { Spt.initial with outstanding := some { index := 0, deadline := s.now + 78125 } }
      pru := { Pru.initial with run := some { start := s.now, fEst := 50000, dc := 0 }, index := 1 }
      rsq := { Rsq.initial with eventCounter := s.rsq.eventCounter }
      slc := { Slc.initial with frameNumber := s.slc.frameNumber }
      cst := captureSoftReset s
      cfl := { Cfl.initial with
        strap := straps, strapsRead := true, badStrap := decide (12 ≤ straps.toNat), source := .loading
        loading := true } } := by
  rw [← half_at_50000 s.now]
  rfl

theorem exec_softResetCarriedOut_of_ready (t : Nat) (straps : BitVec 4) (h : softResetReady s = true) :
    exec (.softResetCarriedOut t straps) s = .next (carryOutReset straps (s.moveTo t)) := by
  rw [exec_eq_effect]
  simp [effect, h]

theorem exec_softResetCarriedOut_of_not_ready (t : Nat) (straps : BitVec 4) (h : softResetReady s = false) :
    exec (.softResetCarriedOut t straps) s = .next (s.moveTo t) := by
  rw [exec_eq_effect]
  simp [effect, h]

/-! A soft reset within an arrival (R132; log 26). -/

/-- Without the operand, or while the conditions do not hold, the parts of an arrival are taken one by one. -/
theorem takeParts_of_no_reset {k : ArrivalTaking} (a : Arrival) (h : k.softReset = none ∨ softResetReady s = false) :
    takeParts k a [] s = s ∧ ∀ p ps, takeParts k a (p :: ps) s = takeParts k a ps (arrivalPart k a p s) := by
  have hw : resetWithin k s = none := by
    rcases h with h | h
    · exact resetWithin_of_none s h
    · simp [resetWithin, h]
  simp [takeParts, hw]

/-- A completion named first is the first part of the arrival, whether or not the cycle end is put last. -/
theorem arrivalOrder_of_completion {k : ArrivalTaking} {rest : List ArrivalPart} (h : k.order = .completion :: rest) :
    ∃ ps, arrivalOrder k = .completion :: ps := by
  have first : takingOrder k.order arrivalParts = .completion ::
      ((rest.filter (fun b => !b == ArrivalPart.completion)).eraseDups ++
        arrivalParts.filter (fun p => !k.order.contains p)) := by
    rw [takingOrder, h, List.eraseDups_cons, List.cons_append]
  unfold arrivalOrder
  dsimp only
  rw [first]
  split
  · exact ⟨_, by rw [List.filter_cons_of_pos (by decide), List.cons_append]⟩
  · exact ⟨_, rfl⟩

/-- Settles O10: the whole part after the reset, its store, its conditions, and the reset within an arrival. -/
theorem softResetKeepsStoreAndNumbers : Obligations.SoftResetKeepsStoreAndNumbers := by
  unfold Obligations.SoftResetKeepsStoreAndNumbers
  refine ⟨?carried, fun t straps s h => exec_softResetCarriedOut_of_not_ready t straps h, softResetReady_iff, ?now,
    ?arrival, fun k straps a ps s hk hs => takeParts_of_ready hk a ps hs, fun k a s h => takeParts_of_no_reset a h,
    ?early⟩
  case carried =>
    intro t straps s h start
    have hcst : (carryOutReset straps (s.moveTo t)).cst = captureSoftReset (s.moveTo t) := by rw [carryOutReset_eq]
    refine ⟨_, exec_softResetCarriedOut_of_ready t straps h, ?_⟩
    rw [hcst]
    refine ⟨carryOutReset_eq straps (s.moveTo t), captureSoftReset_frame (s.moveTo t), fun hf => ?_,
      fun l f hl hf => ?_⟩
    · rw [captureSoftReset_of_idle (by simpa using hf)]
      exact ⟨rfl, rfl, rfl, hf⟩
    · obtain ⟨hmem, hfull, hfill, hfilling⟩ :=
        captureSoftReset_of_filling (s := s.moveTo t) (l := l) (f := f) (by simpa using hl) (by simpa using hf)
      refine ⟨hfull, hfill, hfilling, fun hm => ⟨fun n => recordWord_of_filed hm hmem n.isLt, fun a ha => ?_⟩⟩
      rw [hmem]
      exact read_fileRecord_outside l _ s.cst ha
  case now =>
    intro straps s h
    rw [exec_softResetCarriedOut_of_ready s.now straps h, moveTo_of_le s (Nat.le_refl _)]
  case arrival =>
    intro k s o ho
    refine ⟨?_, fun t set ht hp => ?_⟩
    · rw [exec_eq_effect]
      simp [effect, deadlinePasses_of_some k ho, arrive_eq]
    · rw [exec_eq_effect]
      simp [effect, setArrives_in_time set k ho ht, hp, arrive_eq]
  case early =>
    intro t set k rest straps s o ho ht hp hk hapart horder s1 hnot hready
    obtain ⟨ps, hps⟩ := arrivalOrder_of_completion horder
    have hnow : (completeDue s1).now = max s.now t := by simp [s1]
    have hstart : arrive k o.index (some (saturatedSet set)) (s.moveTo t) = carryOutReset straps (completeDue s1) := by
      rw [arrive_eq, hps, takeParts_of_not_ready k _ _ ps hnot]
      simp only [arrivalPart, if_neg hapart]
      exact takeParts_of_ready hk _ ps hready
    rw [exec_softResetCarriedOut_of_ready t straps hready, moveTo_of_le _ (by rw [hnow]; exact Nat.le_max_right _ _),
      exec_eq_effect]
    simp only [effect, setArrives_in_time set k ho ht, hp, if_true, hstart]

end Sys2Proof.Machine
end

section
/-! SUPPORT. ESA's allocation: the terms, the walk over the classes, the own ratio, and the bound of the grants by the
budget (R60 to R66). -/

namespace Sys2Proof.Machine

variable {ts : List Term} {b c : Nat}

/-! The walk over the classes (R64). -/

theorem remaining_succ_of_fits (h : classTotal ts c ≤ remaining ts b c) :
    remaining ts b (c + 1) = remaining ts b c - classTotal ts c := if_pos h

theorem remaining_succ_of_short (h : remaining ts b c < classTotal ts c) : remaining ts b (c + 1) = 0 :=
  if_neg (Nat.not_le.mpr h)

/-- What is left never grows from class to class. -/
theorem remaining_antitone (ts : List Term) (b : Nat) : Antitone (remaining ts b) :=
  antitone_nat_of_succ_le fun c => by
    rcases Nat.lt_or_ge (remaining ts b c) (classTotal ts c) with short | fits
    · rw [remaining_succ_of_short short]
      exact Nat.zero_le _
    · rw [remaining_succ_of_fits fits]
      exact Nat.sub_le _ _

/-- After the first class that does not fit nothing is left. -/
theorem remaining_eq_zero_of_short (h : remaining ts b c < classTotal ts c) {d : Nat} (hd : c < d) :
    remaining ts b d = 0 :=
  Nat.le_zero.mp ((remaining_antitone ts b hd).trans (remaining_succ_of_short h).le)

theorem demand_le_classTotal {x : Term} (hx : x ∈ ts) : x.demand ≤ classTotal ts x.cls :=
  List.le_sum_of_mem (List.mem_map_of_mem (List.mem_filter.mpr ⟨hx, beq_self_eq_true x.cls⟩))

/-! The grant of a term (R64). -/

theorem grantOf_of_fits {x : Term} (h : classTotal ts x.cls ≤ remaining ts b x.cls) : grantOf ts b x = x.demand :=
  if_pos h

theorem grantOf_of_short {x : Term} (h : remaining ts b x.cls < classTotal ts x.cls) :
    grantOf ts b x = x.demand * remaining ts b x.cls / classTotal ts x.cls := if_neg (Nat.not_le.mpr h)

/-- With nothing left a counted term is granted nothing: it asks for 0, or it shares 0. -/
theorem grantOf_of_nothing_left {x : Term} (hx : x ∈ ts) (h : remaining ts b x.cls = 0) : grantOf ts b x = 0 := by
  rcases Nat.lt_or_ge (remaining ts b x.cls) (classTotal ts x.cls) with short | fits
  · rw [grantOf_of_short short, h, Nat.mul_zero, Nat.zero_div]
  · rw [grantOf_of_fits fits]
    have := demand_le_classTotal hx
    omega

theorem grantOf_le_demand (ts : List Term) (b : Nat) (x : Term) : grantOf ts b x ≤ x.demand := by
  rcases Nat.lt_or_ge (remaining ts b x.cls) (classTotal ts x.cls) with short | fits
  · rw [grantOf_of_short short]
    exact Nat.div_le_of_le_mul (by rw [Nat.mul_comm]; exact Nat.mul_le_mul_right _ short.le)
  · exact (grantOf_of_fits fits).le

/-! The grants against the budget (R64). -/

/-- Floored shares sum to no more than the floored share of the sum. -/
theorem sum_map_mul_div_le {α : Type} (f : α → Nat) (r t : Nat) (l : List α) :
    (l.map (fun x => f x * r / t)).sum ≤ (l.map f).sum * r / t := by
  induction l with
  | nil => exact Nat.zero_le _
  | cons x l ih =>
    simp only [List.map_cons, List.sum_cons, Nat.add_mul]
    exact (Nat.add_le_add_left ih _).trans Nat.div_add_div_le_add_div

/-- The grants of one class come out of what the classes before it have left. -/
theorem classGrants_add_remaining_le (ts : List Term) (b c : Nat) :
    ((ts.filter (fun x => x.cls == c)).map (grantOf ts b)).sum + remaining ts b (c + 1) ≤ remaining ts b c := by
  have cls : ∀ x ∈ ts.filter (fun x => x.cls == c), x.cls = c :=
    fun x hx => by simpa using (List.mem_filter.mp hx).2
  rcases Nat.lt_or_ge (remaining ts b c) (classTotal ts c) with short | fits
  · have grants : (ts.filter (fun x => x.cls == c)).map (grantOf ts b) =
        (ts.filter (fun x => x.cls == c)).map (fun x => x.demand * remaining ts b c / classTotal ts c) :=
      List.map_congr_left fun x hx => by
        obtain rfl := cls x hx
        exact grantOf_of_short short
    rw [remaining_succ_of_short short, grants, Nat.add_zero]
    calc ((ts.filter (fun x => x.cls == c)).map (fun x => x.demand * remaining ts b c / classTotal ts c)).sum
        ≤ classTotal ts c * remaining ts b c / classTotal ts c := sum_map_mul_div_le Term.demand _ _ _
      _ = remaining ts b c := Nat.mul_div_cancel_left _ (Nat.zero_lt_of_lt short)
  · have grants : ((ts.filter (fun x => x.cls == c)).map (grantOf ts b)).sum = classTotal ts c :=
      congrArg List.sum (List.map_congr_left fun x hx => by
        obtain rfl := cls x hx
        exact grantOf_of_fits fits)
    rw [remaining_succ_of_fits fits, grants]
    omega

/-- The terms of the classes up to one are those below it and its own. -/
theorem sum_filter_le (f : Term → Nat) (n : Nat) (ts : List Term) :
    ((ts.filter (fun x => decide (x.cls ≤ n))).map f).sum =
      ((ts.filter (fun x => decide (x.cls < n))).map f).sum + ((ts.filter (fun x => x.cls == n)).map f).sum := by
  induction ts with
  | nil => rfl
  | cons x ts ih =>
    rcases Nat.lt_trichotomy x.cls n with below | own | above
    · simp [below, below.ne, below.le, ih, Nat.add_assoc]
    · simp [own, ih, Nat.add_left_comm]
    · simp [above.ne', Nat.not_le.mpr above, Nat.not_lt.mpr above.le, ih]

/-- The grants of the classes below one and what they leave come out of the budget. -/
theorem grantsBelow_add_remaining_le (ts : List Term) (b n : Nat) :
    ((ts.filter (fun x => decide (x.cls < n))).map (grantOf ts b)).sum + remaining ts b n ≤ b := by
  induction n with
  | zero => simp [remaining]
  | succ n ih =>
    simp only [Nat.lt_succ_iff]
    rw [sum_filter_le]
    have := classGrants_add_remaining_le ts b n
    omega

/-- The sum of the class numbers serves as a class that no term exceeds. -/
theorem sum_grants_le_budget (ts : List Term) (b : Nat) : (ts.map (grantOf ts b)).sum ≤ b := by
  have below : ∀ x ∈ ts, decide (x.cls < (ts.map Term.cls).sum + 1) = true := fun x hx =>
    decide_eq_true (Nat.lt_succ_of_le (List.le_sum_of_mem (List.mem_map_of_mem hx)))
  have bound := grantsBelow_add_remaining_le ts b ((ts.map Term.cls).sum + 1)
  rw [List.filter_eq_self.mpr below] at bound
  omega

/-! The own grant and ratio (R63, R66). -/

theorem ownGrant_of_none (h : ts.find? Term.own = none) : ownGrant ts b = 0 := by
  simp [ownGrant, h]

theorem ownGrant_of_some {x : Term} (h : ts.find? Term.own = some x) : ownGrant ts b = grantOf ts b x := by
  simp [ownGrant, h]

theorem grantRatio_of_none (h : ts.find? Term.own = none) : grantRatio ts b = 32768 := by
  simp [grantRatio, h, Config.one]

theorem grantRatio_of_no_demand {x : Term} (h : ts.find? Term.own = some x) (hx : x.demand = 0) :
    grantRatio ts b = 32768 := by
  simp [grantRatio, h, hx, Config.one]

theorem grantRatio_of_demand {x : Term} (h : ts.find? Term.own = some x) (hx : 0 < x.demand) :
    grantRatio ts b = 32768 * grantOf ts b x / x.demand := by
  simp [grantRatio, h, hx.ne', Config.one]

theorem grantRatio_le_one (ts : List Term) (b : Nat) : grantRatio ts b ≤ 32768 := by
  cases h : ts.find? Term.own with
  | none => exact (grantRatio_of_none h).le
  | some x =>
    rcases Nat.eq_zero_or_pos x.demand with hx | hx
    · exact (grantRatio_of_no_demand h hx).le
    · rw [grantRatio_of_demand h hx]
      exact Nat.div_le_of_le_mul (by rw [Nat.mul_comm]; exact Nat.mul_le_mul_right _ (grantOf_le_demand ts b x))

/-! The terms (R60 to R63). -/

variable {e : PeerEntry} {w : Slow}

theorem announcesEvent_iff (code : BitVec 3) : announcesEvent code = true ↔ code = 3 ∨ code = 4 := by
  simp [announcesEvent]

theorem peerTerm_of_absent (h : e.state = .absent) : peerTerm e = none := by
  simp [peerTerm, h]

theorem peerTerm_of_unknown (h : e.state ≠ .absent) (hw : e.slow = none) :
    peerTerm e = some ⟨false, 0, e.fast.demand.toNat⟩ := by
  simp [peerTerm, h, hw]

theorem peerTerm_of_gateway (h : e.state ≠ .absent) (hw : e.slow = some w) (hk : w.kind = 1) : peerTerm e = none := by
  simp [peerTerm, h, hw, hk]

theorem peerTerm_of_restorer (h : e.state ≠ .absent) (hw : e.slow = some w) (hk : w.kind = 0) :
    peerTerm e = some ⟨false, w.cls.toNat,
      if e.foreign && announcesEvent e.fast.restorer then w.rating.toNat else e.fast.demand.toNat⟩ := by
  simp [peerTerm, h, hw, hk]

theorem slotTerm_of_own {s : State} {j : Nat} (h : ownSlot s = some j) : slotTerm s j = some (ownTerm s) := if_pos h

theorem slotTerm_of_peer {s : State} {j : Nat} (h : ownSlot s ≠ some j) : slotTerm s j = peerTerm (peerEntry s j) :=
  if_neg h

end Sys2Proof.Machine
end

section
/-! The allocation, and its bounds (R60 to R67, R105). -/

namespace Sys2Proof.Machine

/-- Settles O32: the bounds from the walk class by class, and each part of the allocation by its own lemmas. -/
theorem allocationWithinBudget : Obligations.AllocationWithinBudget := by
  unfold Obligations.AllocationWithinBudget
  refine ⟨fun ts b => ⟨sum_grants_le_budget ts b, fun x _ => grantOf_le_demand ts b x, grantRatio_le_one ts b⟩,
    fun e => ⟨peerTerm_of_absent, peerTerm_of_unknown, fun w => peerTerm_of_gateway, ?native, ?foreignEvent,
      ?foreignIdle⟩,
    fun s j => ⟨slotTerm_of_own, slotTerm_of_peer⟩, ?walk, ?own, fun s => rfl⟩
  case native =>
    intro w h hw hk hf
    simp [peerTerm_of_restorer h hw hk, hf]
  case foreignEvent =>
    intro w h hw hk hf hr
    simp [peerTerm_of_restorer h hw hk, hf, (announcesEvent_iff _).mpr hr]
  case foreignIdle =>
    intro w h hw hk hf h3 h4
    have idle : announcesEvent e.fast.restorer = false :=
      Bool.eq_false_iff.mpr fun ha => ((announcesEvent_iff _).mp ha).elim h3 h4
    simp [peerTerm_of_restorer h hw hk, idle]
  case walk =>
    intro ts b
    refine ⟨remaining ts b, rfl, fun c => ⟨fun fits => ⟨remaining_succ_of_fits fits, ?_⟩, fun short =>
      ⟨?_, fun d hd => remaining_eq_zero_of_short short hd, fun x hx hc =>
        grantOf_of_nothing_left hx (remaining_eq_zero_of_short short hc)⟩⟩⟩
    · rintro x - rfl
      exact grantOf_of_fits fits
    · rintro x - rfl
      exact grantOf_of_short short
  case own =>
    intro ts b
    exact ⟨fun h => ⟨ownGrant_of_none h, grantRatio_of_none h⟩, fun x h =>
      ⟨ownGrant_of_some h, grantRatio_of_no_demand h, grantRatio_of_demand h⟩⟩

end Sys2Proof.Machine
end

section
/-! SUPPORT. The budget curve, the demand set at a frame end, and INC's work on a handled set (R58, R69, R89 to
R103). -/

namespace Sys2Proof.Machine

variable {s : State}

/-! The budget curve (R58). -/

section Curve

variable {c : Config.Settings} {vb : Nat}

theorem budgetOf_of_knee (h : c.vKnee ≤ vb) : budgetOf c vb = c.pMax := if_pos h

theorem budgetOf_of_slope (hlo : c.vFloor < vb) (hhi : vb < c.vKnee) :
    budgetOf c vb = c.pMax * (vb - c.vFloor) / (c.vKnee - c.vFloor) := by
  simp [budgetOf, Nat.not_le.mpr hhi, hlo]

theorem budgetOf_of_floor (hc : c.vFloor < c.vKnee) (h : vb ≤ c.vFloor) : budgetOf c vb = 0 := by
  simp [budgetOf, Nat.not_le.mpr (h.trans_lt hc), Nat.not_lt.mpr h]

theorem budgetOf_le (hc : c.vFloor < c.vKnee) (vb : Nat) : budgetOf c vb ≤ c.pMax := by
  rcases Nat.lt_or_ge vb c.vKnee with hhi | hknee
  · rcases Nat.lt_or_ge c.vFloor vb with hlo | hfloor
    · rw [budgetOf_of_slope hlo hhi]
      exact Nat.div_le_of_le_mul (by rw [Nat.mul_comm]; exact Nat.mul_le_mul_right _ (by omega))
    · rw [budgetOf_of_floor hc hfloor]
      exact Nat.zero_le _
  · exact (budgetOf_of_knee hknee).le

end Curve

/-! The own demand (R69). -/

/-- The ceiling is the least quotient whose product reaches the dividend. -/
theorem ceilDiv_le_iff {n d q : Nat} (hd : 0 < d) : ceilDiv n d ≤ q ↔ n ≤ q * d := by
  rw [ceilDiv, ← Nat.lt_succ_iff, Nat.div_lt_iff_lt_mul hd, Nat.succ_mul]
  omega

theorem setDemand_demand_of_idle (h : eventActive s = false) : (setDemand s).inc.demand = 0 := by
  simp [setDemand, h]

theorem setDemand_demand_of_empty (h : eventActive s = true) (hn : s.inc.nDem = 0) :
    (setDemand s).inc.demand = s.inc.demand := by
  simp [setDemand, h, hn]

theorem setDemand_demand_of_window (h : eventActive s = true) (hn : 0 < s.inc.nDem) :
    (setDemand s).inc.demand = min s.settings.rating (ceilDiv s.inc.pDem.toNat (s.inc.nDem * 10000)) := by
  simp [setDemand, h, hn.ne']

/-- The demand of a window: at most the rating, 0 for no power, and else the mean power rounded up. -/
theorem setDemand_window_spec (h : eventActive s = true) (hn : 0 < s.inc.nDem) :
    (setDemand s).inc.demand ≤ s.settings.rating ∧ (s.inc.pDem ≤ 0 → (setDemand s).inc.demand = 0) ∧
    ((setDemand s).inc.demand < s.settings.rating →
      s.inc.pDem ≤ ((setDemand s).inc.demand : Int) * (s.inc.nDem * 10000)) ∧
    (0 < s.inc.pDem → (((setDemand s).inc.demand : Int) - 1) * (s.inc.nDem * 10000) < s.inc.pDem) := by
  have hd : 0 < s.inc.nDem * 10000 := by omega
  have least := fun q => ceilDiv_le_iff (n := s.inc.pDem.toNat) (q := q) hd
  rw [setDemand_demand_of_window h hn]
  generalize ceilDiv s.inc.pDem.toNat (s.inc.nDem * 10000) = q at least
  refine ⟨Nat.min_le_left _ _, fun hp => ?none, fun hlt => ?above, fun hp => ?below⟩
  case none =>
    have : q ≤ 0 := (least 0).mpr (by omega)
    omega
  case above =>
    have hq : min s.settings.rating q = q := by omega
    have reached : (s.inc.pDem.toNat : Int) ≤ (q * (s.inc.nDem * 10000) : Nat) := by
      exact_mod_cast (least q).mp le_rfl
    rw [hq]
    push_cast at reached
    omega
  case below =>
    obtain hzero | ⟨m, hm⟩ : min s.settings.rating q = 0 ∨ ∃ m, min s.settings.rating q = m + 1 :=
      (Nat.eq_zero_or_eq_succ_pred _).imp id fun hm => ⟨_, hm⟩
    · rw [hzero]
      push_cast
      omega
    · have missed : ¬ s.inc.pDem.toNat ≤ m * (s.inc.nDem * 10000) := fun hle => by
        have := (least m).mpr hle
        omega
      have missed' : ((m * (s.inc.nDem * 10000) : Nat) : Int) < s.inc.pDem := by omega
      rw [hm]
      push_cast at missed' ⊢
      simpa using missed'

/-! The raw values and the scales (R92, R93, R97, R98). -/

theorem get_rawValues (s : State) (k : Nat) (set : SampleSet) (p : Phase) :
    (rawValues s k set).get p = rawValue s k set p := by
  cases p <;> rfl

theorem rawValue_of_presag (k : Nat) (set : SampleSet) (p : Phase) (h : s.inc.method = .presag) :
    rawValue s k set p = (s.pru.ref.samples.getD k (Phases.same 0)).get p - set.v.get p := by
  simp [rawValue, h, rawPresag, storedSample]

theorem rawValue_of_inphase (k : Nat) (set : SampleSet) (p : Phase) (h : s.inc.method = .inphase) :
    rawValue s k set p = rawInphase s.settings.vNom (s.sdu.rms.get p) (targetRms s p) (set.v.get p) := by
  simp [rawValue, h]

/-- The whole fraction scales nothing. -/
theorem map_scale_one (u : Phases Int) : u.map (scale 32768) = u := by
  simp [Phases.map, scale]

/-! The ramp (R99, R122). -/

theorem rampStep_of_not_release (h : s.rsq.state ≠ .release) : rampStep s = s := if_neg h

theorem rampStep_of_release (h : s.rsq.state = .release) :
    let n := min (s.inc.rampCount + 1) s.settings.rampLength
    let a := 32768 * (s.settings.rampLength - n) / s.settings.rampLength
    rampStep s =
      { s with
        inc := { s.inc with rampCount := n, ramp := a }
        rsq := { s.rsq with rampDone := s.rsq.rampDone || decide (a = 0) } } := if_pos h

@[simp] theorem rampStep_ratio (s : State) : (rampStep s).inc.ratio = s.inc.ratio := by
  unfold rampStep
  split <;> rfl

/-! A set handled, or not (R89). -/

theorem handles_iff (s : State) : handles s = true ↔ eventActive s = true ∧ s.rsq.onsetArrival = false := by
  simp [handles]

theorem injectSet_of_not_handled (k : Nat) (set : SampleSet) (h : handles s = false) : injectSet k set s = s := by
  simp [injectSet, h]

/-- The chain of a handled set, on the state after the ramp step. -/
theorem injectSet_of_handled (k : Nat) (set : SampleSet) (h : handles s = true) :
    let uc := clampedValues s k set
    let ur := uc.map (scale (rampStep s).inc.ramp)
    let uo := ur.map (scale s.inc.ratio)
    injectSet k set s =
      { rampStep s with inc := { (rampStep s).inc with
          port := uo
          limited := s.inc.limited || uc != rawValues s k set
          energy := s.inc.energy + (uo.a * set.i.a + uo.b * set.i.b + uo.c * set.i.c)
          pDem := s.inc.pDem + (ur.a * set.i.a + ur.b * set.i.b + ur.c * set.i.c)
          nDem := s.inc.nDem + 1 } } := by
  dsimp only
  rw [injectSet, if_pos h]
  dsimp only
  rw [rampStep_ratio]
  rfl

end Sys2Proof.Machine
end

section
/-! The budget curve, the zero-budget count and the own demand (R58, R59, R69). -/

namespace Sys2Proof.Machine

/-- Settles O31: the curve by its ranges, and the demand by the least quotient that reaches the window's power. -/
theorem budgetAndOwnDemand : Obligations.BudgetAndOwnDemand := by
  unfold Obligations.BudgetAndOwnDemand
  refine ⟨fun c vb hc => ⟨budgetOf_of_knee, budgetOf_of_slope, budgetOf_of_floor hc, budgetOf_le hc vb⟩,
    fun n => rfl, fun b n hb => if_neg hb.ne', fun s _ => ⟨rfl, setDemand_demand_of_idle, setDemand_demand_of_empty,
      setDemand_window_spec⟩⟩

end Sys2Proof.Machine
end

section
/-! INC's work on a handled set (R68, R89, R92, R93, R95 to R99, R101, R103, R122). -/

namespace Sys2Proof.Machine

/-- Settles O35: the raw values by method, and the chain of a handled set with the ramp step of its state. -/
theorem handledSet : Obligations.HandledSet := by
  unfold Obligations.HandledSet
  refine ⟨fun s k set p => ⟨fun h => ?presag, fun h => ?inphase⟩, fun c link => rfl, fun k set s =>
    ⟨fun hs ho hramp => ?inject, fun hs ho => ?release, fun h => ?idle⟩, fun s hs _ _ =>
    ⟨rampStep_of_release hs, fun hn => by simp [hn]⟩⟩
  case presag => rw [get_rawValues, rawValue_of_presag k set p h]
  case inphase =>
    rw [get_rawValues, rawValue_of_inphase k set p h]
    rfl
  case inject =>
    have handled : handles s = true := (handles_iff s).mpr ⟨(eventActive_iff s).mpr (.inl hs), ho⟩
    have steady : rampStep s = s := rampStep_of_not_release (by simp [hs])
    have whole : (clampedValues s k set).map (scale s.inc.ramp) = clampedValues s k set := by
      rw [hramp, map_scale_one]
    have chain := injectSet_of_handled k set handled
    dsimp only at chain
    rw [steady, whole] at chain
    exact chain
  case release =>
    exact injectSet_of_handled k set ((handles_iff s).mpr ⟨(eventActive_iff s).mpr (.inr hs), ho⟩)
  case idle =>
    refine injectSet_of_not_handled k set (Bool.eq_false_iff.mpr fun hh => ?_)
    obtain ⟨hact, hno⟩ := (handles_iff s).mp hh
    rcases h with h | h
    · simp [h] at hact
    · simp [h] at hno

end Sys2Proof.Machine
end

section
/-! SUPPORT. EVC's actions: what the withdrawal and the limit of an action hand to the restorer, in either order, and the
state that an action leaves (R81 to R86, R119, R146; log 5, 20). -/

namespace Sys2Proof.Machine

variable (s : State)

/-! The method (R82). -/

/-- The settled method moves the method in use alone at INC (R82). -/
theorem settleMethod_inc (m : TableMethod) :
    (settleMethod m s).inc = { s.inc with method := (settleMethod m s).inc.method } := by
  unfold settleMethod
  (repeat' split) <;> rfl

/-- What becomes of the method in use and of the stale flag, by the method of the action (R82). -/
theorem settleMethod_spec (m : TableMethod) :
    (m = .presag → fresh s = true →
      (settleMethod m s).inc.method = .presag ∧ (settleMethod m s).evc.stale = s.evc.stale) ∧
    (m = .presag → fresh s = false →
      (settleMethod m s).inc.method = .inphase ∧ (settleMethod m s).evc.stale = true) ∧
    (m = .inphase → (settleMethod m s).inc.method = .inphase ∧ (settleMethod m s).evc.stale = s.evc.stale) ∧
    (m = .withdraw →
      (settleMethod m s).inc.method = s.inc.method ∧ (settleMethod m s).evc.stale = s.evc.stale) := by
  cases m with
  | presag => cases h : fresh s <;> simp [settleMethod, h]
  | inphase => simp [settleMethod]
  | withdraw => simp [settleMethod]

/-! The limit by itself (R86). -/

/-- The count of cycle ends has reached a limit of an action; 0 is no limit (R86). -/
def limitMet (n : Nat) (s : State) : Bool := decide (n ≠ 0 ∧ n ≤ s.evc.cycles.toNat)

/-- EVC with a limit of an action in force, before it is compared (R86). -/
def limitInForce (n : Nat) (s : State) : State :=
  { s with evc := { s.evc with limit := if n = 0 then none else some n } }

theorem limitReached_limitInForce_iff (n : Nat) :
    LimitReached (limitInForce n s) ↔ s.rsq.state = .inject ∧ limitMet n s = true := by
  by_cases hn : n = 0 <;> simp [LimitReached, limitMet, limitInForce, hn]

/-- A limit put in force is compared at once, 0 being no limit (R86). -/
theorem putLimit_eq (n : Nat) (apart : Bool) : putLimit n apart s = compareLimit apart (limitInForce n s) := by
  by_cases hn : n = 0
  · simp [putLimit, compareLimit, limitInForce, hn]
  · simp [putLimit, limitInForce, hn]

variable {s}

/-- Outside INJECT a limit is put in force and expires nothing (R86). -/
theorem putLimit_of_not_inject (n : Nat) (apart : Bool) (h : s.rsq.state ≠ .inject) :
    putLimit n apart s = limitInForce n s := by
  rw [putLimit_eq]
  exact compareLimit_of_not_reached _ (fun hr => h hr.1)

/-- A limit that is met takes the restorer out of INJECT, unless the expiry is left apart (R86, R119). -/
theorem putLimit_of_met {n : Nat} (h : limitMet n s = true) :
    putLimit n false s = exitInject .duration (limitInForce n s) := by
  by_cases hs : s.rsq.state = .inject
  · rw [putLimit_eq, compareLimit_of_reached _ ((limitReached_limitInForce_iff s n).mpr ⟨hs, h⟩)]
    rfl
  · rw [putLimit_of_not_inject n false hs, exitInject_of_not_inject _ (by exact hs)]

/-- Left apart, the expiry is marked as due; a limit that is not met leaves no mark (R86; log 5). -/
theorem putLimit_of_stays {n : Nat} {apart : Bool} (h : apart = true ∨ limitMet n s = false) :
    putLimit n apart s = { limitInForce n s with evc := { (limitInForce n s).evc with
      expiryDue := s.evc.expiryDue || decide (s.rsq.state = .inject ∧ apart = true ∧ limitMet n s = true) } } := by
  rw [putLimit_eq]
  by_cases hr : s.rsq.state = .inject ∧ limitMet n s = true
  · obtain ⟨hs, hm⟩ := hr
    have left : apart = true := h.resolve_right (by simp [hm])
    rw [compareLimit_of_reached _ ((limitReached_limitInForce_iff s n).mpr ⟨hs, hm⟩)]
    simp [left, hs, hm]
  · rw [compareLimit_of_not_reached _ (fun hl => hr ((limitReached_limitInForce_iff s n).mp hl))]
    have unmarked : decide (s.rsq.state = .inject ∧ apart = true ∧ limitMet n s = true) = false :=
      decide_eq_false (fun hc => hr ⟨hc.1, hc.2.2⟩)
    rw [unmarked, Bool.or_false]
    rfl

/-! Withdrawal and limit together (R83, R86, R119; log 20). -/

variable (s)

/-- What an action hands to the restorer: its withdrawal and its limit, in the order of the operand. -/
def handAction (limitFirst apart : Bool) (m : TableMethod) (n : Nat) (s : State) : State :=
  if limitFirst then withdraw m (putLimit n apart s) else putLimit n apart (withdraw m s)

/-- The limit is met by the restorer as the action found it: no withdrawal is taken before it. -/
def limitTaken (limitFirst : Bool) (m : TableMethod) (n : Nat) (s : State) : Bool :=
  limitMet n s && decide (m = .withdraw → limitFirst = true)

/-- EVC after withdrawal and limit: the limit in force, the mark, and an expiry that the operand leaves apart. -/
def actionRecorded (limitFirst apart : Bool) (m : TableMethod) (n : Nat) (s : State) : State :=
  { s with evc := { s.evc with
      limit := if n = 0 then none else some n
      withdrawn := s.evc.withdrawn || decide (m = .withdraw)
      expiryDue := s.evc.expiryDue ||
        decide (s.rsq.state = .inject ∧ apart = true ∧ limitTaken limitFirst m n s = true) } }

theorem handAction_of_no_withdrawal {m : TableMethod} (hm : m ≠ .withdraw) (limitFirst apart : Bool) (n : Nat) :
    handAction limitFirst apart m n s = putLimit n apart s := by
  have same : ∀ u, withdraw m u = u := by
    intro u
    cases m <;> simp [withdraw] at hm ⊢
  simp [handAction, same]

variable {s} {limitFirst apart : Bool} {m : TableMethod} {n : Nat}

/-- A withdrawal after an exit that was taken leaves the mark alone. -/
theorem withdraw_exitInject (c : EndCause) :
    withdraw .withdraw (exitInject c s) = exitInject c { s with evc := { s.evc with withdrawn := true } } := by
  by_cases hs : s.rsq.state = .inject
  · rw [exitInject_of_inject c hs, exitInject_of_inject c (by exact hs)]
    exact exitInject_of_not_inject _ (by simp)
  · rw [exitInject_of_not_inject c hs, exitInject_of_not_inject c (by exact hs)]
    exact exitInject_of_not_inject _ (by exact hs)

/-- A limit put in force once the restorer has left INJECT expires nothing (R86). -/
theorem putLimit_exitInject (c : EndCause) :
    putLimit n apart (exitInject c s) = exitInject c (limitInForce n s) := by
  by_cases hs : s.rsq.state = .inject
  · rw [exitInject_of_inject c hs, exitInject_of_inject c (by exact hs)]
    exact putLimit_of_not_inject n apart (by simp)
  · rw [exitInject_of_not_inject c hs, exitInject_of_not_inject c (by exact hs)]
    exact putLimit_of_not_inject n apart hs

/-- The limit is taken: the event leaves INJECT with cause DURATION, whatever comes after (R119). -/
theorem handAction_of_expired (h : limitTaken limitFirst m n s = true) :
    handAction limitFirst false m n s = exitInject .duration (actionRecorded limitFirst false m n s) := by
  simp only [limitTaken, Bool.and_eq_true, decide_eq_true_eq] at h
  obtain ⟨met, first⟩ := h
  by_cases hm : m = .withdraw
  · subst hm
    rw [handAction, if_pos (first rfl), putLimit_of_met met, withdraw_exitInject]
    simp [actionRecorded, limitInForce]
  · rw [handAction_of_no_withdrawal s hm, putLimit_of_met met]
    simp [actionRecorded, limitInForce, hm]

/-- The withdrawal is taken: the event leaves INJECT with cause WITHDRAWN (R83, R119). -/
theorem handAction_of_withdrawn (h : apart = true ∨ limitTaken limitFirst .withdraw n s = false) :
    handAction limitFirst apart .withdraw n s =
      exitInject .withdrawn (actionRecorded limitFirst apart .withdraw n s) := by
  cases limitFirst with
  | false =>
    simp only [handAction, Bool.false_eq_true, if_false, withdraw, putLimit_exitInject]
    simp [actionRecorded, limitTaken, limitInForce]
  | true =>
    rw [handAction, if_pos rfl, putLimit_of_stays (by simpa [limitTaken] using h)]
    simp [withdraw, actionRecorded, limitTaken, limitInForce]

/-- Neither is taken: the restorer stands (R82, R86). -/
theorem handAction_of_stays (hm : m ≠ .withdraw) (h : apart = true ∨ limitTaken limitFirst m n s = false) :
    handAction limitFirst apart m n s = actionRecorded limitFirst apart m n s := by
  have taken : limitTaken limitFirst m n s = limitMet n s := by simp [limitTaken, hm]
  rw [handAction_of_no_withdrawal s hm, putLimit_of_stays (by rwa [← taken])]
  simp [actionRecorded, taken, limitInForce, hm]

/-- One of the three, in every state: outside INJECT an exit finds nothing to do. -/
theorem handAction_cases (limitFirst apart : Bool) (m : TableMethod) (n : Nat) (s : State) :
    let recorded := actionRecorded limitFirst apart m n s
    handAction limitFirst apart m n s = exitInject .duration recorded ∨
    handAction limitFirst apart m n s = exitInject .withdrawn recorded ∨
    handAction limitFirst apart m n s = recorded := by
  intro recorded
  by_cases h : apart = true ∨ limitTaken limitFirst m n s = false
  · by_cases hm : m = .withdraw
    · subst hm
      exact .inr (.inl (handAction_of_withdrawn h))
    · exact .inr (.inr (handAction_of_stays hm h))
  · simp only [not_or, Bool.not_eq_true, Bool.not_eq_false] at h
    obtain ⟨rfl, taken⟩ := h
    exact .inl (handAction_of_expired taken)

theorem handAction_of_not_inject (hs : s.rsq.state ≠ .inject) :
    handAction limitFirst apart m n s = actionRecorded limitFirst apart m n s := by
  have stands : ∀ c, exitInject c (actionRecorded limitFirst apart m n s) = actionRecorded limitFirst apart m n s :=
    fun c => exitInject_of_not_inject c (by exact hs)
  rcases handAction_cases limitFirst apart m n s with h | h | h
  · exact h.trans (stands _)
  · exact h.trans (stands _)
  · exact h

theorem handAction_evc : (handAction limitFirst apart m n s).evc = (actionRecorded limitFirst apart m n s).evc := by
  rcases handAction_cases limitFirst apart m n s with h | h | h <;> simp [h]

theorem exitInject_inc (c : EndCause) (s : State) :
    (exitInject c s).inc = { s.inc with rampCount := (exitInject c s).inc.rampCount } := by
  unfold exitInject
  split <;> rfl

theorem handAction_inc : (handAction limitFirst apart m n s).inc =
    { s.inc with rampCount := (handAction limitFirst apart m n s).inc.rampCount } := by
  rcases handAction_cases limitFirst apart m n s with h | h | h <;> rw [h]
  · exact exitInject_inc _ _
  · exact exitInject_inc _ _
  · rfl

@[simp] theorem handAction_cst : (handAction limitFirst apart m n s).cst = s.cst := by
  rcases handAction_cases limitFirst apart m n s with h | h | h <;> simp [h, actionRecorded]

/-! The whole action (R81 to R86, R146). -/

variable (s) (b b' : Bool) (e : Option TableEntry)

/-- The action's method and override, before the restorer is handed anything (R82, R84). -/
def actionSettled (s : State) (e : Option TableEntry) : State :=
  putOverride (e.bind TableEntry.override) (settleMethod (actionMethod s e) s)

theorem applyAction_eq : applyAction b b' e s =
    let handed := handAction b b' (actionMethod s e) ((e.map TableEntry.limit).getD 0) (actionSettled s e)
    if (e.map TableEntry.capture).getD true then handed else releaseCapture handed := rfl

@[simp] theorem actionSettled_frame : (actionSettled s e).rsq = s.rsq ∧ (actionSettled s e).cst = s.cst := by
  simp [actionSettled]

theorem actionSettled_evc : (actionSettled s e).evc = { s.evc with
    override := e.bind TableEntry.override, stale := (settleMethod (actionMethod s e) s).evc.stale } :=
  congrArg (fun v : Evc => { v with override := e.bind TableEntry.override }) (settleMethod_evc _ s)

theorem actionSettled_inc : (actionSettled s e).inc = { s.inc with
    method := (settleMethod (actionMethod s e) s).inc.method } := settleMethod_inc s _

@[simp] theorem limitTaken_actionSettled (limitFirst : Bool) (m : TableMethod) (n : Nat) :
    limitTaken limitFirst m n (actionSettled s e) = limitTaken limitFirst m n s := by
  simp [limitTaken, limitMet, actionSettled_evc]

/-- What an action leaves of RSQ, INC and EVC is what it hands: a capture "no" is CST's alone (R85). -/
theorem applyAction_handed :
    let u := applyAction b b' e s
    let handed := handAction b b' (actionMethod s e) ((e.map TableEntry.limit).getD 0) (actionSettled s e)
    u.rsq = handed.rsq ∧ u.inc = handed.inc ∧ u.evc = handed.evc := by
  rw [applyAction_eq]
  dsimp only
  split <;> simp

/-- EVC after an action (R82 to R84, R86; log 5). -/
theorem applyAction_evc : (applyAction b b' e s).evc = { s.evc with
    override := e.bind TableEntry.override
    limit := if (e.map TableEntry.limit).getD 0 = 0 then none else some ((e.map TableEntry.limit).getD 0)
    withdrawn := s.evc.withdrawn || decide (actionMethod s e = .withdraw)
    stale := (settleMethod (actionMethod s e) s).evc.stale
    expiryDue := s.evc.expiryDue || decide (s.rsq.state = .inject ∧ b' = true ∧
      limitTaken b (actionMethod s e) ((e.map TableEntry.limit).getD 0) s = true) } := by
  obtain ⟨-, -, evc⟩ := applyAction_handed s b b' e
  rw [evc, handAction_evc]
  simp [actionRecorded, actionSettled_evc]

/-- INC after an action (R82, R99). -/
theorem applyAction_inc : (applyAction b b' e s).inc = { s.inc with
    method := (settleMethod (actionMethod s e) s).inc.method
    rampCount := (applyAction b b' e s).inc.rampCount } := by
  obtain ⟨-, inc, -⟩ := applyAction_handed s b b' e
  rw [inc, handAction_inc, actionSettled_inc]

/-- What becomes of the method in use and of the stale flag, by the method of the action (R81, R82). -/
theorem applyAction_method_spec :
    let m := actionMethod s e
    let u := applyAction b b' e s
    (m = .presag → fresh s = true → u.inc.method = .presag ∧ u.evc.stale = s.evc.stale) ∧
    (m = .presag → fresh s = false → u.inc.method = .inphase ∧ u.evc.stale = true) ∧
    (m = .inphase → u.inc.method = .inphase ∧ u.evc.stale = s.evc.stale) ∧
    (m = .withdraw → u.inc.method = s.inc.method ∧ u.evc.stale = s.evc.stale) := by
  dsimp only
  rw [applyAction_inc, applyAction_evc]
  exact settleMethod_spec s (actionMethod s e)

/-- CST after an action: a capture "no" filters what is in fill and queued by the event's number (R85, R146). -/
theorem applyAction_cst : (applyAction b b' e s).cst =
    if (e.map TableEntry.capture).getD true then s.cst else (releaseCapture s).cst := by
  have event : ∀ c x, (exitInject c x).rsq.event = x.rsq.event := by
    intro c x
    unfold exitInject
    split <;> rfl
  have number : (handAction b b' (actionMethod s e) ((e.map TableEntry.limit).getD 0) (actionSettled s e)).rsq.event =
      s.rsq.event := by
    rcases handAction_cases b b' (actionMethod s e) ((e.map TableEntry.limit).getD 0) (actionSettled s e)
      with h | h | h <;> simp [h, event, actionRecorded]
  rw [applyAction_eq]
  dsimp only
  split
  · simp
  · simp [releaseCapture, number]

/-! What becomes of the restorer (R83, R86, R119). -/

/-- The event has left INJECT for RELEASE with a cause (R99, R117). -/
def LeavesFor (cause : EndCause) (s u : State) : Prop :=
  u.rsq = { s.rsq with state := .release, endCause := cause, rampDone := false } ∧ u.inc.rampCount = 0

/-- The restorer and its ramp count stand. -/
def Stays (s u : State) : Prop := u.rsq = s.rsq ∧ u.inc.rampCount = s.inc.rampCount

theorem exitInject_leaves {x : State} (c : EndCause) (hs : s.rsq.state = .inject) (rsq : x.rsq = s.rsq) :
    LeavesFor c s (exitInject c x) := by
  rw [exitInject_of_inject c (by rw [rsq, hs])]
  exact ⟨by rw [rsq], rfl⟩

/-- Where the action's hand stands as recorded, the restorer stands. -/
theorem stays_of_recorded {limitFirst apart : Bool} {m : TableMethod} {n : Nat}
    (h : handAction b b' (actionMethod s e) ((e.map TableEntry.limit).getD 0) (actionSettled s e) =
      actionRecorded limitFirst apart m n (actionSettled s e)) : Stays s (applyAction b b' e s) := by
  obtain ⟨rsq, inc, -⟩ := applyAction_handed s b b' e
  rw [h] at rsq inc
  refine ⟨rsq.trans (actionSettled_frame s e).1, ?_⟩
  rw [inc]
  change (actionSettled s e).inc.rampCount = s.inc.rampCount
  rw [actionSettled_inc]

theorem applyAction_of_not_inject (hs : s.rsq.state ≠ .inject) : Stays s (applyAction b b' e s) :=
  stays_of_recorded s b b' e (handAction_of_not_inject (by simpa using hs))

variable {s b b' e}

theorem applyAction_of_expired (hs : s.rsq.state = .inject)
    (h : limitTaken b (actionMethod s e) ((e.map TableEntry.limit).getD 0) s = true) :
    LeavesFor .duration s (applyAction b false e s) := by
  obtain ⟨rsq, inc, -⟩ := applyAction_handed s b false e
  rw [handAction_of_expired (by simpa using h)] at rsq inc
  rw [LeavesFor, rsq, inc]
  exact exitInject_leaves s .duration hs (actionSettled_frame s e).1

theorem applyAction_of_withdrawn (hs : s.rsq.state = .inject) (hm : actionMethod s e = .withdraw)
    (h : b' = true ∨ limitTaken b .withdraw ((e.map TableEntry.limit).getD 0) s = false) :
    LeavesFor .withdrawn s (applyAction b b' e s) := by
  obtain ⟨rsq, inc, -⟩ := applyAction_handed s b b' e
  rw [hm, handAction_of_withdrawn (by simpa using h)] at rsq inc
  rw [LeavesFor, rsq, inc]
  exact exitInject_leaves s .withdrawn hs (actionSettled_frame s e).1

theorem applyAction_of_stays (hm : actionMethod s e ≠ .withdraw)
    (h : b' = true ∨ limitTaken b (actionMethod s e) ((e.map TableEntry.limit).getD 0) s = false) :
    Stays s (applyAction b b' e s) :=
  stays_of_recorded s b b' e (handAction_of_stays hm (by simpa using h))

theorem limitTaken_iff (limitFirst : Bool) (m : TableMethod) (n : Nat) (s : State) :
    limitTaken limitFirst m n s = true ↔
      (n ≠ 0 ∧ n ≤ s.evc.cycles.toNat) ∧ (m = .withdraw → limitFirst = true) := by
  simp only [limitTaken, limitMet, Bool.and_eq_true, decide_eq_true_eq]

theorem limitTaken_eq_false_iff (limitFirst : Bool) (m : TableMethod) (n : Nat) (s : State) :
    limitTaken limitFirst m n s = false ↔
      ¬ (n ≠ 0 ∧ n ≤ s.evc.cycles.toNat) ∨ (m = .withdraw ∧ limitFirst = false) := by
  rw [← Bool.not_eq_true, limitTaken_iff, not_and_or]
  simp

end Sys2Proof.Machine
end

section
/-! The action of an entry, and the default action (R81 to R86, R99, R119, R146; log 5, 20). -/

namespace Sys2Proof.Machine

/-- The default action settles the method in use, hands nothing to the restorer and keeps the capture (R81). -/
theorem applyAction_default (b b' : Bool) (s : State) :
    let u := applyAction b b' none s
    u = { s with
      inc := { s.inc with method := u.inc.method }
      evc := { s.evc with override := none, limit := none, stale := u.evc.stale } } := by
  intro u
  have kept : actionMethod s none ≠ .withdraw := by
    cases hm : s.inc.method <;> simp [actionMethod, hm]
  have untaken : limitTaken b (actionMethod s none) 0 s = false := by simp [limitTaken, limitMet]
  obtain ⟨rsq, ramp⟩ : Stays s u := applyAction_of_stays kept (.inr untaken)
  have evc : u.evc = { s.evc with override := none, limit := none, stale := u.evc.stale } := by
    rw [show u.evc = _ from applyAction_evc s b b' none]
    simp [kept, untaken]
  have inc : u.inc = { s.inc with method := u.inc.method } := by
    have h : u.inc = _ := applyAction_inc s b b' none
    rw [show (applyAction b b' none s).inc.rampCount = s.inc.rampCount from ramp] at h
    rw [h]
  have cst : u.cst = s.cst := applyAction_cst s b b' none
  obtain ⟨pins, now, spt, pru, sdu, esa, slc, rqh, cfl, pending⟩ := applyAction_frame s b b' none
  exact state_ext pins now spt pru sdu evc inc rsq esa slc cst rqh cfl pending

/-- What becomes of an injecting restorer and of the expiry mark, by method, order and operand. -/
theorem applyAction_restorer (b b' : Bool) (e : TableEntry) {s : State} (hs : s.rsq.state = .inject) :
    let u := applyAction b b' (some e) s
    let reached := e.limit ≠ 0 ∧ e.limit ≤ s.evc.cycles.toNat
    (e.method = .withdraw → b = false ∨ b' = true ∨ ¬ reached → LeavesFor .withdrawn s u) ∧
    (e.method = .withdraw → b = true → b' = false → reached → LeavesFor .duration s u) ∧
    (e.method ≠ .withdraw → b' = false → reached → LeavesFor .duration s u) ∧
    (e.method ≠ .withdraw → b' = true ∨ ¬ reached → Stays s u) ∧
    (u.evc.expiryDue = true ↔
      s.evc.expiryDue = true ∨ (b' = true ∧ reached ∧ (e.method = .withdraw → b = true))) := by
  intro u reached
  refine ⟨fun hm h => ?_, fun hm hb hb' hr => ?_, fun hm hb' hr => ?_, fun hm h => ?_, ?_⟩
  · refine applyAction_of_withdrawn hs hm ?_
    rw [limitTaken_eq_false_iff]
    tauto
  · subst hb'
    exact applyAction_of_expired hs ((limitTaken_iff b e.method e.limit s).mpr ⟨hr, fun _ => hb⟩)
  · subst hb'
    exact applyAction_of_expired hs ((limitTaken_iff b e.method e.limit s).mpr ⟨hr, fun h => absurd h hm⟩)
  · refine applyAction_of_stays hm (h.imp_right fun hr => ?_)
    exact (limitTaken_eq_false_iff b e.method e.limit s).mpr (.inl hr)
  · have evc : u.evc = _ := applyAction_evc s b b' (some e)
    rw [evc]
    simp only [Bool.or_eq_true, decide_eq_true_eq, hs, true_and, limitTaken_iff]
    rfl

/-- What a capture "no" leaves of CST: a test capture, and captures of other events (R85, R146). -/
theorem releaseCapture_cst_spec (s : State) :
    let c := (releaseCapture s).cst
    c = { s.cst with filling := c.filling, queued := c.queued } ∧
    (s.cst.filling = none → c.filling = none) ∧ (s.cst.queued = none → c.queued = none) ∧
    (∀ f, s.cst.filling = some f →
      c.filling = if f.test = true ∨ f.making.onset.event ≠ s.rsq.event then some f else none) ∧
    (∀ q, s.cst.queued = some q → c.queued = if q.making.onset.event ≠ s.rsq.event then some q else none) := by
  refine ⟨rfl, fun hf => ?_, fun hq => ?_, fun f hf => ?_, fun q hq => ?_⟩
  · simp [releaseCapture, hf]
  · simp [releaseCapture, hq]
  · simp [releaseCapture, hf, Option.filter]
  · simp [releaseCapture, hq, Option.filter]

/-- Settles O39: the default action, then what an entry's action hands to the restorer, then what it leaves of the other
blocks. -/
theorem actionOfAnEntry : Obligations.ActionOfAnEntry := by
  unfold Obligations.ActionOfAnEntry
  refine ⟨?default, ?restorer, ?blocks⟩
  case default =>
    intro b b' s u
    obtain ⟨presag, fallback, inphase, -⟩ := applyAction_method_spec s b b' none
    exact ⟨applyAction_default b b' s, fun hm => inphase (by simp [actionMethod, hm]),
      fun hm => presag (by simp [actionMethod, hm]), fun hm => fallback (by simp [actionMethod, hm])⟩
  case restorer =>
    intro b b' e s u reached leaves stays
    refine ⟨fun hs => applyAction_restorer b b' e hs, fun hs => ⟨applyAction_of_not_inject s b b' (some e) hs, ?_⟩⟩
    rw [show u.evc = _ from applyAction_evc s b b' (some e)]
    simp [hs]
  case blocks =>
    intro b b' e s u
    have evc : u.evc = _ := applyAction_evc s b b' (some e)
    have inc : u.inc = _ := applyAction_inc s b b' (some e)
    have cst : u.cst = if e.capture then s.cst else (releaseCapture s).cst := applyAction_cst s b b' (some e)
    obtain ⟨presag, fallback, inphase, withdrawn⟩ := applyAction_method_spec s b b' (some e)
    refine ⟨by rw [evc]; rfl, by rw [inc], presag, fallback, inphase, withdrawn, fun hc => by simpa [hc] using cst,
      fun hc => ?_, by apply state_ext <;> simp [u]⟩
    rw [cst, hc]
    exact releaseCapture_cst_spec s

end Sys2Proof.Machine
end

section
/-! SUPPORT. The classification window: the coincidences, the depth, the search of the table, and the window's step
(R29, R75, R76, R79 to R81). -/

namespace Sys2Proof.Machine

/-! Coincidences (R75). -/

@[simp] theorem get_join (x y : Phases Bool) (p : Phase) : (x.join y).get p = (x.get p || y.get p) := by
  cases p <;> rfl

@[simp] theorem get_meet (x y : Phases Bool) (p : Phase) : (x.meet y).get p = (x.get p && y.get p) := by
  cases p <;> rfl

theorem witness_iff (mask : Phases Bool) (e : PeerEntry) : witness mask e = true ↔
    e.state = .live ∧ (∃ w, e.slow = some w ∧ w.kind = 0) ∧
    ∃ p, mask.get p = true ∧ (e.fast.sagNow.get p = true ∨ e.sagPrev.get p = true) := by
  unfold witness
  cases e.slow with
  | none => simp
  | some w => simp [any_iff, and_assoc]

theorem coincidences_eq (s : State) : coincidences s = ((List.range 12).filter (fun j =>
    decide (ownSlot s ≠ some j) && witness s.sdu.record.sinceMask (peerEntry s j))).length := by
  rw [← List.countP_eq_length_filter]
  refine List.countP_congr fun j _ => ?_
  simp [peerEntry]

/-- At most the twelve slots count, and not the own one. -/
theorem coincidences_le (s : State) :
    coincidences s ≤ 12 ∧ ((ownSlot s).isSome = true → coincidences s ≤ 11) := by
  refine ⟨List.countP_le_length, fun h => ?_⟩
  obtain ⟨own, hown⟩ := Option.isSome_iff_exists.mp h
  have slot : own < 12 := ((ownSlot_eq_some_iff s own).mp hown).2.2
  have others : coincidences s < (List.range 12).length := by
    rw [coincidences, List.countP_lt_length_iff]
    exact ⟨own, List.mem_range.mpr slot, by simp [hown]⟩
  rw [List.length_range] at others
  omega

/-! The depth (R29). -/

/-- A phase's r_min where it counts for the depth, else the greatest residual. -/
def countedRMin (r : OnsetRecord) (p : Phase) : Nat := if r.sinceMask.get p then r.rMin.get p else 1500

theorem depth_eq (r : OnsetRecord) :
    depth r = min (min (min 1500 (countedRMin r .a)) (countedRMin r .b)) (countedRMin r .c) := by
  have step : ∀ d p, d ≤ 1500 → (if r.sinceMask.get p then min d (r.rMin.get p) else d) = min d (countedRMin r p) := by
    intro d p hd
    unfold countedRMin
    split <;> omega
  simp only [depth, List.foldl_cons, List.foldl_nil]
  rw [step 1500 .a (by omega), step _ .b (by omega), step _ .c (by omega)]

theorem depth_le (r : OnsetRecord) {p : Phase} (h : r.sinceMask.get p = true) : depth r ≤ r.rMin.get p := by
  have counted : countedRMin r p = r.rMin.get p := if_pos h
  rw [depth_eq, ← counted]
  cases p <;> omega

/-- The depth is the r_min of some flagged phase, where one lies within the residuals' range. -/
theorem depth_attained (r : OnsetRecord) (h : ∃ p, r.sinceMask.get p = true ∧ r.rMin.get p ≤ 1500) :
    ∃ p, r.sinceMask.get p = true ∧ depth r = r.rMin.get p := by
  obtain ⟨p, hp, hle⟩ := h
  have bound := depth_le r hp
  by_cases full : depth r = 1500
  · exact ⟨p, hp, by omega⟩
  · have least : ∃ q, depth r = countedRMin r q := by
      rw [depth_eq] at full ⊢
      by_cases ha : countedRMin r .a ≤ countedRMin r .b ∧ countedRMin r .a ≤ countedRMin r .c
      · exact ⟨.a, by omega⟩
      · by_cases hb : countedRMin r .b ≤ countedRMin r .c
        · exact ⟨.b, by omega⟩
        · exact ⟨.c, by omega⟩
    obtain ⟨q, hq⟩ := least
    unfold countedRMin at hq
    split at hq
    · exact ⟨q, by assumption, hq⟩
    · exact absurd hq full

/-! The search (R79 to R81). -/

theorem entryMatches_iff (e : TableEntry) (c : EventClass) (count d : Nat) : entryMatches e c count d = true ↔
    (e.classMatch = .any ∨ (e.classMatch = .grid ∧ c = .grid) ∨ (e.classMatch = .localOnly ∧ c = .localOnly)) ∧
    1 ≤ count ∧ e.phaseSet.getLsbD (count - 1) = true ∧ e.lo ≤ d ∧ d ≤ e.hi := by
  unfold entryMatches
  cases e.classMatch <;> cases c <;> simp [and_assoc]

/-- The entry found stands at its index, counted from where the search began, and none before it matches. -/
theorem searchFrom_some {c : EventClass} {count d k n : Nat} {es : List TableEntry} {e : TableEntry}
    (h : searchFrom c count d k es = some (n, e)) :
    ∃ i, n = k + i ∧ es[i]? = some e ∧ entryMatches e c count d = true ∧
      ∀ m e', m < i → es[m]? = some e' → entryMatches e' c count d = false := by
  induction es generalizing k with
  | nil => cases h
  | cons x xs ih =>
    unfold searchFrom at h
    split at h
    · rename_i hx
      cases h
      exact ⟨0, rfl, rfl, hx, fun m e' hm => absurd hm (Nat.not_lt_zero m)⟩
    · rename_i hx
      obtain ⟨i, hn, hi, matched, before⟩ := ih h
      refine ⟨i + 1, by omega, by simpa using hi, matched, fun m e' hm he' => ?_⟩
      cases m with
      | zero =>
        obtain rfl : x = e' := by simpa using he'
        simpa using hx
      | succ m => exact before m e' (by omega) (by simpa using he')

theorem searchFrom_none {c : EventClass} {count d k : Nat} {es : List TableEntry}
    (h : searchFrom c count d k es = none) : ∀ e ∈ es, entryMatches e c count d = false := by
  induction es generalizing k with
  | nil => simp
  | cons x xs ih =>
    unfold searchFrom at h
    split at h
    · cases h
    · rename_i hx
      intro e he
      rcases List.mem_cons.mp he with rfl | he
      · simpa using hx
      · exact ih h e he

/-! The window's step at a frame end (R75, R76). -/

/-- EVC with a frame end counted in its window. -/
def windowCounted (s : State) : State :=
  { s with evc := { s.evc with coincidence := coincidences s, windowCount := s.evc.windowCount + 1 } }

variable {s : State}

theorem windowStep_of_closed (b b' : Bool) (h : s.evc.window = false) : windowStep b b' s = s := by
  simp [windowStep, h]

theorem windowStep_of_grid (b b' : Bool) (h : s.evc.window = true) (hk : s.settings.k ≤ coincidences s) :
    windowStep b b' s = classify b b' .grid (windowCounted s) := by
  simp [windowStep, windowCounted, h, hk]

theorem windowStep_of_local (b b' : Bool) (h : s.evc.window = true) (hk : coincidences s < s.settings.k)
    (hw : 1 ≤ s.evc.windowCount) : windowStep b b' s = classify b b' .localOnly (windowCounted s) := by
  simp [windowStep, windowCounted, h, Nat.not_le.mpr hk, hw]

theorem windowStep_of_pending (b b' : Bool) (h : s.evc.window = true) (hk : coincidences s < s.settings.k)
    (hw : s.evc.windowCount = 0) : windowStep b b' s = windowCounted s := by
  simp [windowStep, windowCounted, h, Nat.not_le.mpr hk, hw]

/-- A classification's class, closed window and matched entry; the coincidence count stands (R76, R80). -/
theorem classify_evc (b b' : Bool) (c : EventClass) (s : State) :
    (classify b b' c s).evc.eventClass = c ∧ (classify b b' c s).evc.window = false ∧
    (classify b b' c s).evc.matched = (searchTable c s).map Prod.fst ∧
    (classify b b' c s).evc.coincidence = s.evc.coincidence := by
  unfold classify
  dsimp only
  rw [applyAction_evc]
  exact ⟨rfl, rfl, rfl, rfl⟩

theorem windowStep_coincidence (b b' : Bool) (h : s.evc.window = true) :
    (windowStep b b' s).evc.coincidence = coincidences s := by
  by_cases hk : s.settings.k ≤ coincidences s
  · obtain ⟨-, -, -, stands⟩ := classify_evc b b' .grid (windowCounted s)
    rw [windowStep_of_grid b b' h hk, stands]
    rfl
  · by_cases hw : s.evc.windowCount = 0
    · rw [windowStep_of_pending b b' h (by omega) hw]
      rfl
    · obtain ⟨-, -, -, stands⟩ := classify_evc b b' .localOnly (windowCounted s)
      rw [windowStep_of_local b b' h (by omega) (by omega), stands]
      rfl

end Sys2Proof.Machine
end

section
/-! The classification window and the search of the response table (R29, R75, R76, R79 to R81). -/

namespace Sys2Proof.Machine

/-- Settles O38: the window's step by count and frame end, then each of the tests that it reads. -/
theorem windowDecides : Obligations.WindowDecides := by
  unfold Obligations.WindowDecides
  refine ⟨?step, fun b b' s h => windowStep_of_closed b b' h, coincidences_eq, witness_iff, entryMatches_iff,
    fun r => ⟨fun p hp => depth_le r hp, depth_attained r⟩, fun c s => ⟨fun n e h => ?found, searchFrom_none⟩⟩
  case step =>
    intro b b' s h n u decided
    obtain ⟨most, others⟩ := coincidences_le s
    have grid : s.settings.k ≤ n → u = classify b b' .grid (windowCounted s) := windowStep_of_grid b b' h
    have localOnly : n < s.settings.k → 1 ≤ s.evc.windowCount → u = classify b b' .localOnly (windowCounted s) :=
      windowStep_of_local b b' h
    refine ⟨grid, localOnly, most, others, windowStep_coincidence b b' h, fun hk => ?_,
      fun hk hw => (windowStep_of_pending b b' h hk hw).trans (by rw [windowCounted, hw]), fun hk hw => ?_⟩
    · obtain ⟨cls, window, matched, -⟩ := classify_evc b b' .grid (windowCounted s)
      rw [grid hk]
      exact ⟨cls, window, matched⟩
    · obtain ⟨cls, window, matched, -⟩ := classify_evc b b' .localOnly (windowCounted s)
      rw [localOnly hk (by omega)]
      exact ⟨cls, window, matched⟩
  case found =>
    obtain ⟨i, rfl, hi, matched, before⟩ := searchFrom_some h
    obtain ⟨-, -, -, lo, hi'⟩ := (entryMatches_iff ..).mp matched
    rw [Nat.zero_add]
    exact ⟨hi, matched, lo, hi', before⟩

end Sys2Proof.Machine
end

section
/-! SUPPORT. The restorer's own tests of an arrival, and an arrival of no event: service, the link-low run, the zero
budget, the recovery count, and DURATION_EXPIRY (R28, R30, R86, R111 to R113, R117 to R120). -/

namespace Sys2Proof.Machine

variable {s : State}

/-! DURATION_EXPIRY (R86, R119; log 5). -/

theorem expireDuration_of_due (h : s.evc.expiryDue = true) :
    expireDuration s = exitInject .duration { s with evc := { s.evc with expiryDue := false } } := if_pos h

theorem expireDuration_of_none (h : s.evc.expiryDue = false) : expireDuration s = s := by
  simp [expireDuration, h]

/-! Service (R111, R112, R113). -/

/-- The state that the service test at an arrival leaves. -/
def stateAfterService (s : State) : RestorerState :=
  if s.rsq.state = .ready ∧ s.spt.lastGood.link < s.settings.linkMin ∧ s.rsq.onsetArrival = false then .charge
  else if s.rsq.state = .charge ∧ s.settings.linkReady ≤ s.spt.lastGood.link ∧ s.pru.lock = .locked ∧
    (s.slc.membership = .member ∨ s.slc.membership = .mute) then .ready
  else s.rsq.state

theorem eventActive_eq_false_iff (s : State) :
    eventActive s = false ↔ s.rsq.state ≠ .inject ∧ s.rsq.state ≠ .release := by
  rw [← Bool.not_eq_true, eventActive_iff, not_or]

theorem serviceTest_eq (s : State) :
    serviceTest s = { s with rsq := { s.rsq with state := stateAfterService s } } := by
  unfold serviceTest readyTest stateAfterService
  simp only [onLine_iff]
  by_cases hr : s.rsq.state = .ready
  · rw [if_pos hr]
    simp only [hr, true_and, reduceCtorEq, false_and, if_false]
    split
    · rfl
    · rw [← hr]
  · rw [if_neg hr]
    simp only [hr, false_and, if_false]
    split <;> rfl

theorem stateAfterService_cases (s : State) :
    stateAfterService s = .charge ∨ stateAfterService s = .ready ∨ stateAfterService s = s.rsq.state := by
  unfold stateAfterService
  split
  · exact .inl rfl
  · split
    · exact .inr (.inl rfl)
    · exact .inr (.inr rfl)

/-- The service test begins no event. -/
theorem serviceTest_no_event (h : eventActive s = false) : eventActive (serviceTest s) = false := by
  rw [serviceTest_eq]
  rcases stateAfterService_cases s with hs | hs | hs
  · simp [eventActive, hs]
  · simp [eventActive, hs]
  · exact (eventActive_congr hs).trans h

/-! The link-low run and the zero budget (R118). -/

/-- The link-low count after an arrival (R118). -/
def linkLowAfter (s : State) : Nat := if s.spt.lastGood.link < s.settings.linkMin then s.rsq.linkLow + 1 else 0

theorem linkRunTest_of_inject (hs : s.rsq.state = .inject) (ho : s.rsq.onsetArrival = false) :
    linkRunTest s =
      if 4 ≤ linkLowAfter s then exitInject .exhausted { s with rsq := { s.rsq with linkLow := 4 } }
      else { s with rsq := { s.rsq with linkLow := linkLowAfter s } } := by
  unfold linkRunTest
  rw [if_pos ⟨hs, ho⟩]
  rfl

theorem linkRunTest_of_passed_over (h : s.rsq.state ≠ .inject ∨ s.rsq.onsetArrival = true) : linkRunTest s = s := by
  unfold linkRunTest
  rw [if_neg]
  rintro ⟨hs, ho⟩
  rcases h with h | h
  · exact h hs
  · simp [ho] at h

/-! SDU's record and the recovery count (R28, R30, R120). -/

/-- The onset record after an arrival that opens none (R28). -/
def recordAfter (d : Sdu) : OnsetRecord :=
  if d.record.isOpen = true then
    { d.record with sinceMask := d.record.sinceMask.join d.flags, rMin := Phases.map2 min d.record.rMin d.residual }
  else d.record

theorem accumulate_eq (s : State) : accumulate s = { s with sdu := { s.sdu with record := recordAfter s.sdu } } := by
  unfold accumulate recordAfter
  split <;> rfl

theorem detect_of_inject (k : CompletionTaking) (hs : s.rsq.state = .inject) :
    detect k s = recoveryTest (accumulate s) := by
  simp [detect, onsetHere, resagHere, hs]

/-- Outside INJECT an arrival that is no onset and no re-sag only goes into the open record. -/
theorem detect_of_neither (k : CompletionTaking) (ho : onsetHere s = false) (hr : resagHere s = false)
    (hs : s.rsq.state ≠ .inject) : detect k s = accumulate s := by
  simp [detect, ho, hr, recoveryTest, hs]

theorem all_iff (x : Phases Bool) : x.all = true ↔ ∀ p, x.get p = true := by
  constructor
  · intro h p
    simp only [Phases.all, Bool.and_eq_true] at h
    obtain ⟨⟨ha, hb⟩, hc⟩ := h
    cases p <;> assumption
  · intro h
    simp only [Phases.all, Bool.and_eq_true]
    exact ⟨⟨h .a, h .b⟩, h .c⟩

theorem recovered_iff (s : State) :
    recovered s = true ↔ ∀ p, s.settings.recoverThreshold ≤ s.sdu.residual.get p := by
  simp [recovered, all_iff]

theorem recoveryTest_of_low (hs : s.rsq.state = .inject) (h : recovered s = false) :
    recoveryTest s = { s with sdu := { s.sdu with recovery := 0 } } := by
  simp [recoveryTest, hs, h]

theorem recoveryTest_of_rising (hs : s.rsq.state = .inject) (h : recovered s = true)
    (hn : s.sdu.recovery + 1 < s.settings.recoverPersistence) :
    recoveryTest s = { s with sdu := { s.sdu with recovery := s.sdu.recovery + 1 } } := by
  simp [recoveryTest, hs, h, hn]

theorem recoveryTest_of_reached (hs : s.rsq.state = .inject) (h : recovered s = true)
    (hn : s.sdu.recovery + 1 = s.settings.recoverPersistence) :
    recoveryTest s = exitInject .recovered { s with sdu := { s.sdu with recovery := s.sdu.recovery + 1 } } := by
  simp [recoveryTest, hs, h, ← hn]

theorem recoveryTest_of_past (hs : s.rsq.state = .inject) (h : recovered s = true)
    (hn : s.settings.recoverPersistence ≤ s.sdu.recovery) : recoveryTest s = s := by
  have past : ¬ s.sdu.recovery + 1 < s.settings.recoverPersistence := by omega
  simp [recoveryTest, hs, h, past, Nat.not_lt.mpr hn]

/-! An arrival of no event (R13, R111 to R113). -/

/-- What follows the cycle end in the default order, with no event: the service test alone has work. -/
theorem later_parts_of_no_event (k : CompletionTaking) (b : Bool) (n : Nat) (set : SampleSet) (x : Phases Int)
    (h : eventActive s = false) :
    closeWaits k b x (overcurrentTest k (linkRunTest (serviceTest (injectSet n set s)))) = serviceTest s := by
  have inc : injectSet n set s = s := injectSet_of_not_handled n set (by simp [handles, h])
  have idle : eventActive (serviceTest s) = false := serviceTest_no_event h
  obtain ⟨notInject, notRelease⟩ := (eventActive_eq_false_iff _).mp idle
  rw [inc, linkRunTest_of_passed_over (.inl notInject)]
  simp [overcurrentTest, idle, closeWaits, notRelease]

theorem holdoverLimitReached_no_event (h : eventActive s = false) : eventActive (holdoverLimitReached s) = false := by
  unfold holdoverLimitReached
  split
  · exact (lockHanded_eq _).2.trans h
  · exact h

/-- With no event the timed steps still due leave RSQ and PRU as HOLDOVER_LIMIT does. -/
theorem settleDue_of_no_event (h : eventActive s = false) :
    (settleDue s).rsq = (holdoverLimitReached s).rsq ∧ (settleDue s).pru = (holdoverLimitReached s).pru := by
  have idle : eventActive (holdoverLimitReached s) = false := holdoverLimitReached_no_event h
  obtain ⟨notInject, notRelease⟩ := (eventActive_eq_false_iff _).mp idle
  have closed : closeTimedOut .afterNo (Phases.same true) (holdoverLimitReached s) = holdoverLimitReached s :=
    if_neg notRelease
  have expired : (expireDuration (holdoverLimitReached s)).rsq = (holdoverLimitReached s).rsq := by
    unfold expireDuration
    split
    · rw [exitInject_of_not_inject _ (by exact notInject)]
    · rfl
  simp [settleDue, closed, expired]

/-- With no event a set taken leaves RSQ but for the onset mark, and PRU's lock and good-cycle count. -/
theorem takeSet_of_no_event (n : Nat) (g : Option SampleSet) (h : eventActive s = false) :
    (takeSet n g s).rsq = { s.rsq with onsetArrival := false } ∧
    (takeSet n g s).pru.lock = s.pru.lock ∧ (takeSet n g s).pru.goodCount = s.pru.goodCount := by
  obtain ⟨-, notRelease⟩ := (eventActive_eq_false_iff s).mp h
  have waits : ∀ u : State, u.rsq.state ≠ .release → beginWaits u = u := by
    intro u hu
    simp [beginWaits, hu]
  unfold takeSet
  dsimp only
  rw [waits _ (by simpa using notRelease)]
  simp [noteSet]

theorem settleDue_no_event (h : eventActive s = false) : eventActive (settleDue s) = false := by
  obtain ⟨rsq, -⟩ := settleDue_of_no_event h
  exact (eventActive_congr (congrArg Rsq.state rsq)).trans (holdoverLimitReached_no_event h)

/-- A cycle end with no event begins none. -/
theorem cycleEnd_no_event (apart expiry : Bool) (h : eventActive s = false) :
    eventActive (cycleEnd apart expiry s) = false := by
  rw [cycleEnd_of_no_event _ _ h]
  exact (handLock_eq _ _).2.trans h

/-- A good set with no event and no onset, in the default order, at RSQ: the cycle end and the service test have work. -/
theorem arrive_default_of_no_event (n : Nat) (set : SampleSet) (h : eventActive s = false)
    (ho : onsetHere (takeSet n (some set) (settleDue s)) = false) :
    let s1 := takeSet n (some set) (settleDue s)
    (arrive {} n (some set) s).rsq =
      (serviceTest (if n = 127 then cycleEnd false false (accumulate s1) else accumulate s1)).rsq := by
  intro s1
  have taken : s1.rsq.state = (settleDue s).rsq.state := takeSet_state n (some set) (settleDue s)
  have idle : eventActive s1 = false := (eventActive_congr taken).trans (settleDue_no_event h)
  obtain ⟨notInject, notRelease⟩ := (eventActive_eq_false_iff s1).mp idle
  have detected : detect .afterNo s1 = accumulate s1 :=
    detect_of_neither .afterNo ho (by simp [resagHere, notRelease]) notInject
  have accumulated : eventActive (accumulate s1) = false := (eventActive_congr (by simp)).trans idle
  rw [arrive_default]
  simp only [Option.isNone_some, Bool.false_eq_true, false_and, if_false]
  rw [detected]
  split
  · rw [later_parts_of_no_event _ _ _ _ _ (cycleEnd_no_event false false accumulated)]
    simp
  · rw [later_parts_of_no_event _ _ _ _ _ accumulated]
    simp

/-- CHARGE to READY at an arrival (R111). -/
theorem arrive_default_of_charge {n : Nat} {set : SampleSet} (hs : s.rsq.state = .charge) (hn : n ≠ 127)
    (hl : s.settings.linkReady ≤ set.link) (hp : s.pru.lock = .locked) (ho : onLine s = true) :
    (arrive {} n (some set) s).rsq = { s.rsq with state := .ready, onsetArrival := false } := by
  have idle : eventActive s = false := by simp [eventActive, hs]
  have held : holdoverLimitReached s = s := holdoverLimitReached_of_not (.inl (by simp [hp]))
  obtain ⟨rsq, pru⟩ := settleDue_of_no_event idle
  rw [held] at rsq pru
  obtain ⟨taken, lock, -⟩ := takeSet_of_no_event n (some set) (settleDue_no_event idle)
  rw [rsq] at taken
  rw [pru] at lock
  have noOnset : onsetHere (takeSet n (some set) (settleDue s)) = false := by simp [onsetHere, taken, hs]
  have good := takeSet_lastGood (settleDue s) n (some set)
  have ready : stateAfterService (accumulate (takeSet n (some set) (settleDue s))) = .ready := by
    rw [onLine_iff] at ho
    simp [stateAfterService, State.settings, taken, hs, good, hl, lock, hp, ho]
  rw [arrive_default_of_no_event n set idle noOnset, if_neg hn, serviceTest_eq, ready]
  simp [taken]

/-! READY lost at an arrival with a low link (R112). -/

/-- READY, or CHARGE entered with ACQUIRE by the lock's change. -/
def ReadyOrAcquire (s : State) : Prop := s.rsq.state = .ready ∨ (s.rsq.state = .charge ∧ s.pru.lock = .acquire)

theorem serviceTest_loses_ready (h : ReadyOrAcquire s) (hl : s.spt.lastGood.link < s.settings.linkMin)
    (ho : s.rsq.onsetArrival = false) : (serviceTest s).rsq.state = .charge := by
  rw [serviceTest_eq]
  rcases h with hs | ⟨hs, hp⟩
  · simp [stateAfterService, hs, hl, ho]
  · simp [stateAfterService, hs, hp]

/-- HOLDOVER_LIMIT takes READY to CHARGE with the entry to ACQUIRE, and no good cycle counted (R13, R112). -/
theorem holdoverLimitReached_of_ready (hs : s.rsq.state = .ready) :
    (holdoverLimitReached s).rsq.state = .ready ∨
    ((holdoverLimitReached s).rsq.state = .charge ∧ (holdoverLimitReached s).pru.lock = .acquire ∧
      (holdoverLimitReached s).pru.goodCount = 0) := by
  unfold holdoverLimitReached
  split
  · rw [lockHanded_of_acquire (by rfl)]
    exact .inr ⟨if_pos hs, rfl, rfl⟩
  · exact .inl hs

/-- A cycle end leaves READY alone but for ACQUIRE, and ACQUIRE without sixteen good cycles (R12, R112). -/
theorem cycleEnd_readyOrAcquire (apart expiry : Bool) (h : s.rsq.state = .ready ∨
    (s.rsq.state = .charge ∧ s.pru.lock = .acquire ∧ s.pru.goodCount = 0)) :
    ReadyOrAcquire (cycleEnd apart expiry s) := by
  have idle : eventActive s = false := by
    rcases h with hs | ⟨hs, -⟩ <;> simp [eventActive, hs]
  obtain ⟨eq, same, entered, others⟩ := cycleEnd_of_no_event_spec apart expiry idle
  have lock : (cycleEnd apart expiry s).pru.lock = (cycleEndPru apart s).lock := by rw [eq]
  unfold ReadyOrAcquire
  rw [lock]
  rcases h with hs | ⟨hs, hp, hg⟩
  · by_cases stands : (cycleEndPru apart s).lock = s.pru.lock
    · exact .inl ((same stands).trans hs)
    · by_cases acquires : (cycleEndPru apart s).lock = .acquire
      · exact .inr ⟨by simp [entered acquires (fun e => stands (acquires.trans e.symm)), hs], acquires⟩
      · exact .inl (by simp [others acquires stands, hs])
  · obtain ⟨-, -, -, -, stays⟩ := evaluateCycle_of_acquire apart hp
    have few : (goodCountAfter s).toNat < 16 := by
      unfold goodCountAfter
      rw [hg]
      split <;> decide
    have acquires : (cycleEndPru apart s).lock = .acquire := (cycleEndPru_fields apart idle).1.trans (stays few)
    exact .inr ⟨(same (acquires.trans hp.symm)).trans hs, acquires⟩

/-- READY to CHARGE at an arrival (R112). -/
theorem arrive_default_of_ready {n : Nat} {set : SampleSet} (hs : s.rsq.state = .ready)
    (hl : set.link < s.settings.linkMin) (ho : onsetHere (takeSet n (some set) (settleDue s)) = false) :
    (arrive {} n (some set) s).rsq.state = .charge := by
  have idle : eventActive s = false := by simp [eventActive, hs]
  obtain ⟨rsq, pru⟩ := settleDue_of_no_event idle
  obtain ⟨taken, lock, count⟩ := takeSet_of_no_event n (some set) (settleDue_no_event idle)
  have good := takeSet_lastGood (settleDue s) n (some set)
  rw [arrive_default_of_no_event n set idle ho]
  have settled := holdoverLimitReached_of_ready hs
  have cfl : (takeSet n (some set) (settleDue s)).cfl = s.cfl := by simp
  generalize takeSet n (some set) (settleDue s) = s1 at taken lock count good cfl
  rw [← rsq, ← pru, ← lock, ← count] at settled
  have before : (accumulate s1).rsq.state = .ready ∨ ((accumulate s1).rsq.state = .charge ∧
      (accumulate s1).pru.lock = .acquire ∧ (accumulate s1).pru.goodCount = 0) := by
    simpa [taken] using settled
  have mark : (accumulate s1).rsq.onsetArrival = false := by simp [taken]
  split
  · refine serviceTest_loses_ready (cycleEnd_readyOrAcquire false false before) ?_ ?_
    · simpa [State.settings, good, cfl] using hl
    · obtain ⟨eq, -⟩ := cycleEnd_of_no_event_spec (s := accumulate s1) false false
        (by rcases before with h | ⟨h, -⟩ <;> rw [eventActive_eq_false_iff, h] <;> decide)
      rw [eq]
      exact mark
  · refine serviceTest_loses_ready (before.imp_right fun ⟨state, lock, _⟩ => ⟨state, lock⟩) ?_ mark
    simpa [State.settings, good, cfl] using hl

end Sys2Proof.Machine
end

section
/-! DURATION_EXPIRY, and the restorer's own tests (R28, R30, R86, R99, R111 to R113, R117 to R120). -/

namespace Sys2Proof.Machine

/-- Settles O28: the expiry as an exit from INJECT, then each of the tests by its cases, and the two arrivals that the
service test decides. -/
theorem durationExpiryLeavesInject : Obligations.DurationExpiryLeavesInject := by
  unfold Obligations.DurationExpiryLeavesInject
  intro leaves
  have exits : ∀ c s, s.rsq.state = .inject → exitInject c s = leaves c s := fun c s h => exitInject_of_inject c h
  refine ⟨fun s hd hs => ?expiry, fun s hd hs => ?outside, fun s hd => ?none, serviceTest_eq, ?arrival, ?linkRun,
    fun s h => linkRunTest_of_passed_over h, ?exhaust, ?recovery, ?record⟩
  case expiry =>
    rw [exec_eq_effect, effect, expireDuration_of_due hd, exits _ _ (by exact hs)]
  case outside =>
    rw [exec_eq_effect, effect, expireDuration_of_due hd, exitInject_of_not_inject _ (by exact hs)]
  case none =>
    rw [exec_eq_effect, effect, expireDuration_of_none hd]
  case arrival =>
    intro t set s o ho ht hp
    rw [exec_eq_effect]
    simp only [effect, setArrives_in_time set {} ho ht, hp, if_true]
    exact ⟨fun hs hn hl hlock hon => ⟨_, rfl, arrive_default_of_charge (s := s.moveTo t) hs hn hl hlock hon⟩,
      fun hs hl honset => ⟨_, rfl, arrive_default_of_ready (s := s.moveTo t) hs hl honset⟩⟩
  case linkRun =>
    intro s hs ho
    have test := linkRunTest_of_inject hs ho
    refine ⟨fun hl => ?_, fun hl hn => ?_, fun hl hn => ?_⟩
    · have count : linkLowAfter s = 0 := if_neg (by omega)
      rw [test, count, if_neg (by decide)]
    · have count : linkLowAfter s = s.rsq.linkLow + 1 := if_pos hl
      rw [test, count, if_neg (by omega)]
    · have count : linkLowAfter s = s.rsq.linkLow + 1 := if_pos hl
      rw [test, count, if_pos (by omega), exits _ _ (by exact hs)]
  case exhaust =>
    intro s
    refine ⟨fun hs hz => ?_, fun h => ?_⟩
    · rw [exhaustTest, if_pos hz, exits _ _ hs]
    · rcases h with h | h
      · rw [exhaustTest, exitInject_of_not_inject _ h, ite_self]
      · rw [exhaustTest, if_neg (by omega)]
  case recovery =>
    intro k s hs back record counted
    have detected : detect k s = recoveryTest (counted s.sdu.recovery) := by
      rw [detect_of_inject k hs, accumulate_eq]
      rfl
    have recovers : recovered (counted s.sdu.recovery) = true ↔ back := recovered_iff _
    rw [detected]
    refine ⟨fun hb => ?_, fun hb hn => ?_, fun hb hn => ?_, fun hb hn => ?_⟩
    · exact recoveryTest_of_low hs (by simpa using mt recovers.mp hb)
    · exact recoveryTest_of_rising hs (recovers.mpr hb) hn
    · exact (recoveryTest_of_reached (s := counted s.sdu.recovery) hs (recovers.mpr hb) hn).trans (exits _ _ hs)
    · exact recoveryTest_of_past hs (recovers.mpr hb) hn
  case record =>
    intro k s ho hr hs
    exact (detect_of_neither k ho hr hs).trans (accumulate_eq s)

end Sys2Proof.Machine
end

section
/-! SUPPORT. The image: its checks one by one, the response table's entries by their byte positions, and what a load puts
in force at CFL and EVC (R79, R168 to R173, R182; log 13). -/

namespace Sys2Proof.Machine

/-! The checks in their order (R168, R169). -/

theorem lengthLegal_iff (n : Nat) : lengthLegal n = true ↔ 54 ≤ n ∧ n ≤ 150 ∧ (n - 54) % 8 = 0 := by
  simp [lengthLegal, and_assoc]

section

variable {image : List Byte}

theorem loadImage_of_no_header (h : image.length < 4) : loadImage image = defaultsResult .noAnswer := if_pos h

theorem loadImage_of_bad_format (h : 4 ≤ image.length) (hf : halfAt image 0 ≠ 1) :
    loadImage image = defaultsResult .badFormat := by
  unfold loadImage
  dsimp only
  rw [if_neg (Nat.not_lt.mpr h), if_pos hf]

theorem loadImage_of_bad_length (h : 4 ≤ image.length) (hf : halfAt image 0 = 1)
    (hn : lengthLegal (halfAt image 2).toNat = false) : loadImage image = defaultsResult .badFormat := by
  simp [loadImage, Nat.not_lt.mpr h, hf, hn]

theorem loadImage_of_short (h : 4 ≤ image.length) (hf : halfAt image 0 = 1)
    (hn : lengthLegal (halfAt image 2).toNat = true) (hs : image.length < (halfAt image 2).toNat) :
    loadImage image = defaultsResult .noAnswer := by
  simp [loadImage, Nat.not_lt.mpr h, hf, hn, hs]

/-- With its header and its length right, and all its bytes there, the CRC decides. -/
theorem loadImage_of_whole (hf : halfAt image 0 = 1) (hn : lengthLegal (halfAt image 2).toNat = true)
    (hs : (halfAt image 2).toNat ≤ image.length) : loadImage image =
      if crc16 (image.take ((halfAt image 2).toNat - 2)) ≠ halfAt image ((halfAt image 2).toNat - 2) then
        defaultsResult .badCrc
      else imageResult image := by
  obtain ⟨least, -, -⟩ := (lengthLegal_iff _).mp hn
  have header : ¬ image.length < 4 := by omega
  unfold loadImage
  dsimp only
  rw [if_neg header, if_neg (not_not.mpr hf), if_neg (by simp [hn]), if_neg (Nat.not_lt.mpr hs)]

/-- Every load ends with the built-in defaults, whatever the reason, or with the image (R173). -/
theorem loadImage_cases (image : List Byte) :
    (∃ reason, loadImage image = defaultsResult reason) ∨ loadImage image = imageResult image := by
  unfold loadImage
  dsimp only
  split
  · exact .inl ⟨_, rfl⟩
  split
  · exact .inl ⟨_, rfl⟩
  split
  · exact .inl ⟨_, rfl⟩
  split
  · exact .inl ⟨_, rfl⟩
  split
  · exact .inl ⟨_, rfl⟩
  · exact .inr rfl

theorem loadImage_of_defaults (h : (loadImage image).source = .defaults) :
    ∃ reason, loadImage image = defaultsResult reason := by
  refine (loadImage_cases image).resolve_right fun accepted => ?_
  rw [accepted] at h
  cases h

end

/-! The entries up to the first end flag (R79, R172). -/

theorem length_splitTable (es : List (List Byte)) :
    (splitTable es).1.length + (splitTable es).2.length = es.length := by
  induction es with
  | nil => rfl
  | cons e es ih =>
    unfold splitTable
    split <;> simp only [List.length_cons, List.length_nil] <;> omega

/-- An entry with no end flag before it is in force. -/
theorem splitTable_before_end {es : List (List Byte)} {j : Nat}
    (h : ∀ i e, i < j → es[i]? = some e → endFlagSet e = false) : (splitTable es).1[j]? = es[j]? := by
  induction es generalizing j with
  | nil => rfl
  | cons e es ih =>
    cases j with
    | zero =>
      unfold splitTable
      split <;> rfl
    | succ j =>
      have unflagged : endFlagSet e = false := h 0 e (Nat.succ_pos j) rfl
      unfold splitTable
      rw [if_neg (by simp [unflagged])]
      exact ih fun i e' hi he' => h (i + 1) e' (by omega) he'

/-- An entry with an end flag before it is not in force. -/
theorem splitTable_after_end {es : List (List Byte)} {i j : Nat} {e : List Byte} (hi : i < j) (he : es[i]? = some e)
    (hf : endFlagSet e = true) : (splitTable es).1[j]? = none := by
  induction es generalizing i j with
  | nil => cases he
  | cons x xs ih =>
    cases j with
    | zero => omega
    | succ j =>
      unfold splitTable
      split
      · rfl
      · rename_i hx
        cases i with
        | zero =>
          obtain rfl := Option.some.inj he
          exact absurd hf hx
        | succ i => exact ih (by omega) he

/-! An entry's fields (R172, R182). -/

theorem decodeMatch_spec (code : BitVec 2) :
    ((decodeMatch code).1 = .grid ↔ code = 0) ∧ ((decodeMatch code).1 = .localOnly ↔ code = 1) ∧
    ((decodeMatch code).2 = true ↔ code = 3) := by
  revert code
  decide

theorem decodeMethod_spec (code : BitVec 2) :
    ((decodeMethod code).1 = .presag ↔ code = 0) ∧ ((decodeMethod code).1 = .withdraw ↔ code = 2) ∧
    ((decodeMethod code).2 = true ↔ code = 3) := by
  revert code
  decide

theorem decodeOverride_spec (code : BitVec 3) :
    (decodeOverride code).1 = (if code.toNat < 4 then some (code.extractLsb' 0 2) else none) ∧
    ((decodeOverride code).2 = true ↔ 4 ≤ code.toNat ∧ code.toNat < 7) := by
  revert code
  decide

/-- The eight bytes of an entry as they stand in the image (R182). -/
def entryBytes (image : List Byte) (j : Nat) : List Byte := (image.drop (52 + 8 * j)).take 8

theorem byteAt_entryBytes (image : List Byte) (j : Nat) {n : Nat} (h : n < 8) :
    byteAt (entryBytes image j) n = byteAt image (52 + 8 * j + n) := by
  simp [byteAt, entryBytes, List.getD_eq_getElem?_getD, List.getElem?_take_of_lt h]

theorem halfAt_entryBytes (image : List Byte) (j : Nat) {n : Nat} (h : n + 1 < 8) :
    halfAt (entryBytes image j) n = halfAt image (52 + 8 * j + n) := by
  rw [halfAt, halfAt, byteAt_entryBytes image j h, byteAt_entryBytes image j (by omega), Nat.add_assoc (52 + 8 * j)]

/-- An entry decoded by its byte positions in the image. -/
theorem decodeEntry_entryBytes (image : List Byte) (j : Nat) :
    let first := byteAt image (52 + 8 * j)
    let sixth := byteAt image (57 + 8 * j)
    let lo := (halfAt image (53 + 8 * j)).toNat
    let hi := (halfAt image (55 + 8 * j)).toNat
    let limit := (halfAt image (58 + 8 * j)).toNat
    let kind := decodeMatch (first.extractLsb' 5 2)
    let method := decodeMethod (sixth.extractLsb' 6 2)
    let override := decodeOverride (sixth.extractLsb' 3 3)
    decodeEntry (entryBytes image j) =
      { entry :=
          { classMatch := kind.1, phaseSet := first.extractLsb' 0 3, lo := min lo 1500, hi := min hi 1500
            method := method.1, override := override.1, capture := sixth.getLsbD 0, limit := min limit 3000
            endFlag := first.getLsbD 7 }
        clamped := kind.2 || method.2 || override.2 || decide (1500 < lo) || decide (1500 < hi) ||
          decide (3000 < limit) } := by
  have at5 : 52 + 8 * j + 5 = 57 + 8 * j := by omega
  have at1 : 52 + 8 * j + 1 = 53 + 8 * j := by omega
  have at3 : 52 + 8 * j + 3 = 55 + 8 * j := by omega
  have at6 : 52 + 8 * j + 6 = 58 + 8 * j := by omega
  unfold decodeEntry
  rw [byteAt_entryBytes image j (by decide), byteAt_entryBytes image j (by decide),
    halfAt_entryBytes image j (by decide), halfAt_entryBytes image j (by decide),
    halfAt_entryBytes image j (by decide), at5, at1, at3, at6]
  rfl

/-! The table of an accepted image (R79, R172, R182). -/

/-- Entry j stands in the image, with no end flag before it. -/
def EntryInForce (image : List Byte) (j : Nat) : Prop :=
  j < ((halfAt image 2).toNat - 54) / 8 ∧ ∀ i, i < j → (byteAt image (52 + 8 * i)).getLsbD 7 = false

theorem getElem?_tableBytes (image : List Byte) (j : Nat) : (tableBytes image)[j]? =
    if j < ((halfAt image 2).toNat - 54) / 8 then some (entryBytes image j) else none := by
  unfold tableBytes
  rw [List.getElem?_map]
  split
  · rename_i h
    rw [List.getElem?_range h]
    rfl
  · rename_i h
    rw [List.getElem?_eq_none (by simpa using h)]
    rfl

theorem endFlagSet_entryBytes (image : List Byte) (j : Nat) :
    endFlagSet (entryBytes image j) = (byteAt image (52 + 8 * j)).getLsbD 7 := by
  rw [endFlagSet, byteAt_entryBytes image j (by decide), Nat.add_zero]

theorem splitTable_of_inForce {image : List Byte} {j : Nat} (h : EntryInForce image j) :
    (splitTable (tableBytes image)).1[j]? = some (entryBytes image j) := by
  obtain ⟨hj, flags⟩ := h
  rw [splitTable_before_end, getElem?_tableBytes, if_pos hj]
  intro i e hi he
  rw [getElem?_tableBytes, if_pos (by omega)] at he
  obtain rfl := Option.some.inj he
  rw [endFlagSet_entryBytes, flags i hi]

theorem splitTable_of_not_inForce {image : List Byte} {j : Nat} (h : ¬ EntryInForce image j) :
    (splitTable (tableBytes image)).1[j]? = none := by
  by_cases hj : j < ((halfAt image 2).toNat - 54) / 8
  · have flagged : ∃ i, i < j ∧ (byteAt image (52 + 8 * i)).getLsbD 7 = true := by
      by_contra clear
      exact h ⟨hj, fun i hi => by simpa using fun hf => clear ⟨i, hi, hf⟩⟩
    obtain ⟨i, hi, hf⟩ := flagged
    refine splitTable_after_end hi (e := entryBytes image i) ?_ (by rw [endFlagSet_entryBytes, hf])
    rw [getElem?_tableBytes, if_pos (by omega)]
  · have count : (tableBytes image).length ≤ j := by simpa [tableBytes] using hj
    have whole := length_splitTable (tableBytes image)
    exact List.getElem?_eq_none (by omega)

theorem imageResult_table_of_inForce {image : List Byte} {j : Nat} (h : EntryInForce image j) :
    (imageResult image).table[j]? = some (decodeEntry (entryBytes image j)).entry := by
  simp [imageResult, splitTable_of_inForce h]

theorem imageResult_table_of_not_inForce {image : List Byte} {j : Nat} (h : ¬ EntryInForce image j) :
    (imageResult image).table[j]? = none := by
  simp only [imageResult, List.getElem?_map, splitTable_of_not_inForce h, Option.map_none]

/-- The entries in force and those left unused are the image's entries. -/
theorem imageResult_length (image : List Byte) :
    (imageResult image).table.length + (imageResult image).unused.length = ((halfAt image 2).toNat - 54) / 8 := by
  have whole := length_splitTable (tableBytes image)
  simp only [imageResult, List.length_map]
  rw [whole]
  simp [tableBytes]

/-- A field of entry j is beyond its codes or its range (R172). -/
def EntryClamped (image : List Byte) (j : Nat) : Prop :=
  (byteAt image (52 + 8 * j)).extractLsb' 5 2 = 3 ∨ (byteAt image (57 + 8 * j)).extractLsb' 6 2 = 3 ∨
  (4 ≤ ((byteAt image (57 + 8 * j)).extractLsb' 3 3).toNat ∧
    ((byteAt image (57 + 8 * j)).extractLsb' 3 3).toNat < 7) ∨
  1500 < (halfAt image (53 + 8 * j)).toNat ∨ 1500 < (halfAt image (55 + 8 * j)).toNat ∨
  3000 < (halfAt image (58 + 8 * j)).toNat

theorem decodeEntry_clamped_iff (image : List Byte) (j : Nat) :
    (decodeEntry (entryBytes image j)).clamped = true ↔ EntryClamped image j := by
  rw [decodeEntry_entryBytes]
  obtain ⟨-, -, kind⟩ := decodeMatch_spec ((byteAt image (52 + 8 * j)).extractLsb' 5 2)
  obtain ⟨-, -, method⟩ := decodeMethod_spec ((byteAt image (57 + 8 * j)).extractLsb' 6 2)
  obtain ⟨-, override⟩ := decodeOverride_spec ((byteAt image (57 + 8 * j)).extractLsb' 3 3)
  simp only [Bool.or_eq_true, decide_eq_true_eq, kind, method, override, or_assoc, EntryClamped]

/-- CLAMPED: a setting that was, or a field of an entry in force (R170 to R172). -/
theorem imageResult_clamped_iff (image : List Byte) : (imageResult image).clamped = true ↔
    workingSettings image ≠ rawSettings image ∨ ∃ j, EntryInForce image j ∧ EntryClamped image j := by
  have entries : ((splitTable (tableBytes image)).1.map decodeEntry).any DecodedEntry.clamped = true ↔
      ∃ j, EntryInForce image j ∧ EntryClamped image j := by
    rw [List.any_map, List.any_eq_true]
    constructor
    · rintro ⟨e, he, hc⟩
      obtain ⟨j, hj⟩ := List.mem_iff_getElem?.mp he
      by_cases hf : EntryInForce image j
      · rw [splitTable_of_inForce hf] at hj
        obtain rfl := Option.some.inj hj
        exact ⟨j, hf, (decodeEntry_clamped_iff image j).mp hc⟩
      · rw [splitTable_of_not_inForce hf] at hj
        cases hj
    · rintro ⟨j, hf, hc⟩
      exact ⟨_, List.mem_iff_getElem?.mpr ⟨j, splitTable_of_inForce hf⟩, (decodeEntry_clamped_iff image j).mpr hc⟩
  simp only [imageResult, Bool.or_eq_true, decide_eq_true_eq, entries]

/-! What a load puts in force at CFL and EVC (R174, R176). -/

theorem comeIntoForce_cfl (r : LoadResult) (s : State) :
    (comeIntoForce r s).cfl = cflInForce r s.cst.layout s.cfl := by
  simp [comeIntoForce]

theorem comeIntoForce_evc (r : LoadResult) (s : State) :
    (comeIntoForce r s).evc = { s.evc with table := r.table, unused := r.unused } := by
  simp [comeIntoForce]

/-- The end of a load in flight (R168, R174). -/
theorem exec_loadCompletion_of_loading (t : Nat) (image : List Byte) {s : State} (h : s.cfl.loading = true) :
    exec (.loadCompletion t image) s = .next (comeIntoForce (loadImage image) (s.moveTo t)) := by
  rw [exec_eq_effect]
  simp [effect, endLoad, h]

theorem exec_memoryNoAnswer_of_loading (t : Nat) {s : State} (h : s.cfl.loading = true) :
    exec (.memoryNoAnswer t) s = .next (comeIntoForce (defaultsResult .noAnswer) (s.moveTo t)) := by
  rw [exec_eq_effect]
  simp [effect, endLoad, h]

theorem voidMaskOf_nil : voidMaskOf [] = 0 := by decide

/-- The built-in defaults in force, with a reason (R173, R176). -/
theorem comeIntoForce_defaults (reason : Reason) (s : State) :
    let u := comeIntoForce (defaultsResult reason) s
    u.settings = Config.defaults ∧ u.evc.table = [] ∧ u.cfl.source = .defaults ∧ u.cfl.reason = reason ∧
    u.cfl.clamped = false ∧ u.cfl.voidMask = 0 ∧ u.cfl.defaultsFlag = true ∧
    u.cfl.digest = digestOf Config.defaults := by
  simp only [State.settings, comeIntoForce_cfl, comeIntoForce_evc]
  have digest : (defaultsResult reason).settings = Config.defaults := rfl
  exact ⟨rfl, rfl, rfl, rfl, rfl, voidMaskOf_nil, rfl, congrArg digestOf digest⟩

end Sys2Proof.Machine
end

section
/-! The checks of the image, and what an accepted one puts in force (R79, R168 to R173, R176, R182; log 13). -/

namespace Sys2Proof.Machine

/-- An entry in force of an accepted image, field by field (R79, R172, R182). -/
theorem imageResult_entry {image : List Byte} {j : Nat} (h : EntryInForce image j) :
    let first := byteAt image (52 + 8 * j)
    let sixth := byteAt image (57 + 8 * j)
    ∃ e, (imageResult image).table[j]? = some e ∧
      e.phaseSet = first.extractLsb' 0 3 ∧ e.endFlag = first.getLsbD 7 ∧ e.capture = sixth.getLsbD 0 ∧
      e.lo = min (halfAt image (53 + 8 * j)).toNat 1500 ∧ e.hi = min (halfAt image (55 + 8 * j)).toNat 1500 ∧
      e.limit = min (halfAt image (58 + 8 * j)).toNat 3000 ∧
      (e.classMatch = .grid ↔ first.extractLsb' 5 2 = 0) ∧ (e.classMatch = .localOnly ↔ first.extractLsb' 5 2 = 1) ∧
      (e.method = .presag ↔ sixth.extractLsb' 6 2 = 0) ∧ (e.method = .withdraw ↔ sixth.extractLsb' 6 2 = 2) ∧
      e.override = if (sixth.extractLsb' 3 3).toNat < 4 then some (sixth.extractLsb' 3 2) else none := by
  intro first sixth
  obtain ⟨grid, localOnly, -⟩ := decodeMatch_spec (first.extractLsb' 5 2)
  obtain ⟨presag, withdrawn, -⟩ := decodeMethod_spec (sixth.extractLsb' 6 2)
  obtain ⟨override, -⟩ := decodeOverride_spec (sixth.extractLsb' 3 3)
  have low : (sixth.extractLsb' 3 3).extractLsb' 0 2 = sixth.extractLsb' 3 2 := by
    refine BitVec.eq_of_getLsbD_eq fun i hi => ?_
    have inside : i < 3 := by omega
    simp [hi, inside]
  rw [low] at override
  refine ⟨_, imageResult_table_of_inForce h, ?_⟩
  rw [decodeEntry_entryBytes]
  exact ⟨rfl, rfl, rfl, rfl, rfl, rfl, grid, localOnly, presag, withdrawn, override⟩

/-- Settles O8: the checks one by one, then the accepted image's settings, entries and CLAMPED, then the defaults. -/
theorem imageChecksInOrder : Obligations.ImageChecksInOrder := by
  unfold Obligations.ImageChecksInOrder
  refine ⟨fun bytes n => ⟨rfl, rfl⟩, fun image => rfl, fun t image s hl => ?load, fun t s hl => ?absent⟩
  case absent =>
    obtain ⟨settings, table, source, reason, clamped, voidMask, flag, digest⟩ :=
      comeIntoForce_defaults .noAnswer (s.moveTo t)
    exact ⟨_, exec_memoryNoAnswer_of_loading t hl, settings, table, source, reason, clamped, voidMask, flag, digest⟩
  case load =>
    intro n
    have failed : ∀ reason, loadImage image = defaultsResult reason →
        (comeIntoForce (loadImage image) (s.moveTo t)).cfl.source = .defaults ∧
        (comeIntoForce (loadImage image) (s.moveTo t)).cfl.reason = reason := by
      intro reason h
      rw [h, comeIntoForce_cfl]
      exact ⟨rfl, rfl⟩
    refine ⟨_, exec_loadCompletion_of_loading t image hl, fun h => failed _ (loadImage_of_no_header h),
      fun h hf => failed _ (loadImage_of_bad_format h hf), fun h hf hn => ?_, fun h hf h54 h150 h8 hs => ?_,
      fun hf h54 h150 h8 hs hc => ?_, fun hf h54 h150 h8 hs hc => ?_, fun hd => ?_, ?_, ?_⟩
    · refine failed _ (loadImage_of_bad_length h hf (Bool.eq_false_iff.mpr fun legal => ?_))
      obtain ⟨h54, h150, h8⟩ := (lengthLegal_iff n).mp legal
      omega
    · exact failed _ (loadImage_of_short h hf ((lengthLegal_iff n).mpr ⟨h54, h150, h8⟩) hs)
    · have whole := loadImage_of_whole hf ((lengthLegal_iff n).mpr ⟨h54, h150, h8⟩) hs
      exact failed _ (whole.trans (if_pos hc))
    · have accepted : loadImage image = imageResult image :=
        (loadImage_of_whole hf ((lengthLegal_iff n).mpr ⟨h54, h150, h8⟩) hs).trans (if_neg (not_not.mpr hc))
      simp only [State.settings, accepted, comeIntoForce_cfl, comeIntoForce_evc]
      exact ⟨rfl, rfl, rfl, rfl, imageResult_length image, fun j hj => imageResult_table_of_not_inForce hj,
        fun j hj => imageResult_entry hj, imageResult_clamped_iff image⟩
    · rw [comeIntoForce_cfl] at hd
      obtain ⟨reason, defaulted⟩ := loadImage_of_defaults hd
      obtain ⟨settings, table, -, -, clamped, voidMask, flag, -⟩ := comeIntoForce_defaults reason (s.moveTo t)
      rw [defaulted]
      exact ⟨settings, table, clamped, voidMask, flag⟩
    · simp only [State.settings, comeIntoForce_cfl]
      rfl
    · simp only [comeIntoForce_cfl, comeIntoForce_evc]
      rfl

end Sys2Proof.Machine
end

section
/-! SUPPORT. What each change of the restorer makes of INC: the fractions stay in 0..32768, and the port stands or goes
to 0 (R67, R98, R99, R101, R105). The set that INC handles, which writes the port, has lemmas of its own. -/

namespace Sys2Proof.Machine

/-- The fractions and the allocation stand, and INJECT is not entered. -/
theorem FractionsBounded.of_same {s u : State} (hs : FractionsBounded s)
    (inject : u.rsq.state = .inject → s.rsq.state = .inject) (ramp : u.inc.ramp = s.inc.ramp)
    (ratio : u.inc.ratio = s.inc.ratio) (lowest : u.inc.lowest = s.inc.lowest) (esa : u.esa = s.esa) :
    FractionsBounded u where
  full h := ramp.trans (hs.full (inject h))
  ramp := ramp ▸ hs.ramp
  ratio := ratio ▸ hs.ratio
  lowest := lowest ▸ hs.lowest
  allocated := esa ▸ hs.allocated

/-- A change that keeps the fractions in their range, and writes nothing but 0 to the port. The mark of an onset's
arrival changes with such a 0 alone. -/
structure InjectionStep (s u : State) : Prop where
  fractions : FractionsBounded s → FractionsBounded u
  port : (u.inc.port = s.inc.port ∧ u.rsq.onsetArrival = s.rsq.onsetArrival) ∨ u.inc.port = Phases.same 0

namespace InjectionStep

theorem refl (s : State) : InjectionStep s s := ⟨id, .inl ⟨rfl, rfl⟩⟩

theorem trans {s u v : State} (h : InjectionStep s u) (h' : InjectionStep u v) : InjectionStep s v where
  fractions hs := h'.fractions (h.fractions hs)
  port := by
    rcases h'.port with ⟨port', onset'⟩ | zero'
    · rcases h.port with ⟨port, onset⟩ | zero
      · exact .inl ⟨port'.trans port, onset'.trans onset⟩
      · exact .inr (port'.trans zero)
    · exact .inr zero'

/-- The same, the later change named first. -/
theorem after {s u v : State} (h' : InjectionStep u v) (h : InjectionStep s u) : InjectionStep s v := h.trans h'

/-- INC and the allocation stand whole, and INJECT is not entered. -/
theorem of_inc {s u : State} (inject : u.rsq.state = .inject → s.rsq.state = .inject)
    (onset : u.rsq.onsetArrival = s.rsq.onsetArrival) (inc : u.inc = s.inc) (esa : u.esa = s.esa) :
    InjectionStep s u where
  fractions hs := hs.of_same inject (by rw [inc]) (by rw [inc]) (by rw [inc]) esa
  port := .inl ⟨by rw [inc], onset⟩

/-- RSQ stands too; other blocks may change. -/
theorem of_blocks {s u : State} (rsq : u.rsq = s.rsq) (inc : u.inc = s.inc) (esa : u.esa = s.esa) :
    InjectionStep s u := .of_inc (by rw [rsq]; exact id) (by rw [rsq]) inc esa

end InjectionStep

variable (s : State)

/-! Exits from INJECT, and EVC's actions (R82 to R86, R117). -/

theorem exitInject_injection (c : EndCause) : InjectionStep s (exitInject c s) := by
  by_cases h : s.rsq.state = .inject
  · rw [exitInject_of_inject c h]
    exact ⟨fun hs => hs.of_same (fun _ => h) rfl rfl rfl rfl, .inl ⟨rfl, rfl⟩⟩
  · rw [exitInject_of_not_inject c h]
    exact .refl s

theorem withdraw_injection (m : TableMethod) : InjectionStep s (withdraw m s) := by
  cases m with
  | withdraw => exact .after (exitInject_injection _ _) (.of_blocks rfl rfl rfl)
  | presag => exact .refl s
  | inphase => exact .refl s

theorem compareLimit_injection (b : Bool) : InjectionStep s (compareLimit b s) := by
  unfold compareLimit
  split
  · split
    · split
      · exact .of_blocks rfl rfl rfl
      · exact exitInject_injection s _
    · exact .refl s
  · exact .refl s

theorem putLimit_injection (n : Nat) (b : Bool) : InjectionStep s (putLimit n b s) := by
  unfold putLimit
  split
  · exact .of_blocks rfl rfl rfl
  · exact .after (compareLimit_injection _ _) (.of_blocks rfl rfl rfl)

theorem settleMethod_injection (m : TableMethod) : InjectionStep s (settleMethod m s) := by
  unfold settleMethod
  (repeat' split) <;> exact ⟨fun hs => hs.of_same id rfl rfl rfl rfl, .inl ⟨rfl, rfl⟩⟩

theorem applyAction_injection (b b' : Bool) (e : Option TableEntry) : InjectionStep s (applyAction b b' e s) := by
  unfold applyAction
  dsimp only
  generalize actionMethod s e = m
  generalize (e.map TableEntry.limit).getD 0 = n
  have settled : InjectionStep s (putOverride (e.bind TableEntry.override) (settleMethod m s)) :=
    (settleMethod_injection s m).trans (.of_blocks rfl rfl rfl)
  generalize putOverride (e.bind TableEntry.override) (settleMethod m s) = s1 at settled
  have acted : InjectionStep s (if b then withdraw m (putLimit n b' s1) else putLimit n b' (withdraw m s1)) := by
    split
    · exact settled.trans ((putLimit_injection _ _ _).trans (withdraw_injection _ _))
    · exact settled.trans ((withdraw_injection _ _).trans (putLimit_injection _ _ _))
  generalize (if b then withdraw m (putLimit n b' s1) else putLimit n b' (withdraw m s1)) = s2 at acted
  split
  · exact acted
  · exact acted.trans (.of_blocks rfl rfl rfl)

theorem classify_injection (b b' : Bool) (c : EventClass) : InjectionStep s (classify b b' c s) :=
  .after (applyAction_injection _ _ _ _) (.of_blocks rfl rfl rfl)

theorem windowStep_injection (b b' : Bool) : InjectionStep s (windowStep b b' s) := by
  unfold windowStep
  dsimp only
  (repeat' split)
  · exact .after (classify_injection _ _ _ _) (.of_blocks rfl rfl rfl)
  · exact .after (classify_injection _ _ _ _) (.of_blocks rfl rfl rfl)
  · exact .of_blocks rfl rfl rfl
  · exact .refl s

/-! The event's end, and the faults (R101, R124, R128). -/

/-- The blocks that take an event's end put the port to 0 and leave the fractions (R101). -/
theorem handEnd_injection (k : CompletionTaking) : InjectionStep s (handEnd k s) := by
  rw [handEnd_eq]
  exact ⟨fun hs => hs.of_same id rfl rfl rfl rfl, .inr rfl⟩

theorem endEvent_injection (k : CompletionTaking) (c : EndCause) {t : RestorerState} (h : t ≠ .inject) :
    InjectionStep s (endEvent k c t s) := by
  rw [endEvent_eq]
  exact ⟨fun hs => hs.of_same (fun ht => absurd ht h) rfl rfl rfl rfl, .inr rfl⟩

theorem releaseTarget_ne_inject : releaseTarget s ≠ .inject := by
  rcases releaseTarget_cases s with ⟨h, -⟩ | h | h <;> simp [h]

theorem faultTaken_injection (k : CompletionTaking) (c : EndCause) : InjectionStep s (faultTaken k c s) := by
  unfold faultTaken
  split
  · exact endEvent_injection s k c (by decide)
  · split
    · exact .of_inc (fun h => by cases h) rfl rfl rfl
    · exact .refl s

/-! Onset, re-sag and recovery (R26 to R30, R99, R113, R114, R125). -/

/-- An onset taken puts every fraction to one and the port to 0; a refused one opens INC's record and ends at once
(R90, R99, R101, R114). -/
theorem takeOnset_injection (k : CompletionTaking) : InjectionStep s (takeOnset k s) := by
  rcases Nat.eq_zero_or_pos s.esa.budget with broke | funded
  · rw [takeOnset_of_no_budget k broke]
    refine ⟨fun hs => (handEnd_injection _ k).fractions ?_, .inr (by rw [handEnd_eq])⟩
    rw [refusedAt_eq]
    exact ⟨hs.full, hs.ramp, hs.ratio, Nat.le_refl _, hs.allocated⟩
  · have opened : InjectionStep s (captureOnset (injectingAt s)) := by
      rw [injectingAt_eq]
      exact ⟨fun hs => ⟨fun _ => rfl, Nat.le_refl _, Nat.le_refl _, Nat.le_refl _, hs.allocated⟩, .inr rfl⟩
    rw [takeOnset_of_budget k funded]
    split
    · exact opened.trans (classify_injection _ _ _ _)
    · exact opened

/-- The return to INJECT puts the ramp factor back to one (R99, R125). -/
theorem takeResag_injection : InjectionStep s (takeResag s) := by
  unfold takeResag
  split
  · exact ⟨fun hs => ⟨fun _ => rfl, Nat.le_refl _, hs.ratio, hs.lowest, hs.allocated⟩, .inl ⟨rfl, rfl⟩⟩
  · exact .of_inc id rfl rfl rfl

theorem recoveryTest_injection : InjectionStep s (recoveryTest s) := by
  unfold recoveryTest
  (repeat' split)
  · exact .of_blocks rfl rfl rfl
  · exact .after (exitInject_injection _ _) (.of_blocks rfl rfl rfl)
  · exact .refl s
  · exact .of_blocks rfl rfl rfl
  · exact .refl s

theorem detect_injection (k : CompletionTaking) : InjectionStep s (detect k s) := by
  unfold detect
  split
  · exact takeOnset_injection s k
  · split
    · exact .after (takeResag_injection _) (.of_blocks (by simp) (by simp) (by simp))
    · exact .after (recoveryTest_injection _) (.of_blocks (by simp) (by simp) (by simp))

/-! RSQ's tests at an arrival (R111, R112, R118, R123, R126). -/

theorem readyTest_injection : InjectionStep s (readyTest s) := by
  unfold readyTest
  split
  · exact .of_inc (fun h => by cases h) rfl rfl rfl
  · exact .refl s

theorem lockHanded_injection : InjectionStep s (lockHanded s) := by
  unfold lockHanded
  split
  · split
    · exact .of_inc (fun h => by cases h) rfl rfl rfl
    · exact .refl s
  · exact readyTest_injection s

theorem serviceTest_injection : InjectionStep s (serviceTest s) := by
  unfold serviceTest
  split
  · split
    · exact .of_inc (fun h => by cases h) rfl rfl rfl
    · exact .refl s
  · exact readyTest_injection s

theorem linkRunTest_injection : InjectionStep s (linkRunTest s) := by
  unfold linkRunTest
  dsimp only
  split
  · generalize (if s.spt.lastGood.link < s.settings.linkMin then s.rsq.linkLow + 1 else 0) = n
    split
    · exact .after (exitInject_injection _ _) (.of_inc id rfl rfl rfl)
    · exact .of_inc id rfl rfl rfl
  · exact .refl s

theorem overcurrentTarget_ne_inject (ends : List Word) : overcurrentTarget ends s ≠ .inject := by
  unfold overcurrentTarget
  split
  · decide
  · exact releaseTarget_ne_inject s

theorem overcurrentTest_injection (k : CompletionTaking) : InjectionStep s (overcurrentTest k s) := by
  unfold overcurrentTest
  split
  · split
    · split
      · exact .of_inc id rfl rfl rfl
      · exact .after (endEvent_injection _ k _ (overcurrentTarget_ne_inject s _)) (.of_inc id rfl rfl rfl)
    · exact .of_inc id rfl rfl rfl
  · exact .refl s

theorem closeBypasses_injection (k : CompletionTaking) (m : Phases Bool) : InjectionStep s (closeBypasses k m s) := by
  rw [closeBypasses_eq]
  split
  · exact endEvent_injection s k _ (releaseTarget_ne_inject s)
  · exact .of_inc id rfl rfl rfl

theorem closeWaits_injection (k : CompletionTaking) (b : Bool) (x : Phases Int) :
    InjectionStep s (closeWaits k b x s) := by
  unfold closeWaits
  dsimp only
  split
  · exact .after (closeBypasses_injection _ k _) (.of_inc id rfl rfl rfl)
  · exact .refl s

theorem closeTimedOut_injection (k : CompletionTaking) (m : Phases Bool) :
    InjectionStep s (closeTimedOut k m s) := by
  unfold closeTimedOut
  split
  · exact closeBypasses_injection s k _
  · exact .refl s

/-! The cycle end, and the timed steps (R13, R86, R127). -/

theorem handLock_injection (l : LockState) : InjectionStep s (handLock l s) := by
  unfold handLock
  split
  · exact .refl s
  · exact lockHanded_injection s

theorem countCycle_injection (b : Bool) : InjectionStep s (countCycle b s) := by
  unfold countCycle
  split
  · exact .after (compareLimit_injection _ _) (.of_blocks rfl rfl rfl)
  · exact .refl s

theorem countCycleEnd_injection : InjectionStep s (countCycleEnd s) := .of_inc id rfl rfl rfl

theorem cycleEnd_injection (b b' : Bool) : InjectionStep s (cycleEnd b b' s) :=
  .after (countCycleEnd_injection _)
    (.after (countCycle_injection _ _) (.after (handLock_injection _ _) (.of_blocks rfl rfl rfl)))

theorem holdoverLimitReached_injection : InjectionStep s (holdoverLimitReached s) := by
  unfold holdoverLimitReached
  split
  · exact .after (lockHanded_injection _) (.of_blocks rfl rfl rfl)
  · exact .refl s

theorem expireDuration_injection : InjectionStep s (expireDuration s) := by
  unfold expireDuration
  split
  · exact .after (exitInject_injection _ _) (.of_blocks rfl rfl rfl)
  · exact .refl s

theorem completeDue_injection : InjectionStep s (completeDue s) := .of_blocks (by simp) (by simp) (by simp)

theorem settleDue_injection : InjectionStep s (settleDue s) :=
  (holdoverLimitReached_injection s).trans
    ((closeTimedOut_injection _ _ _).trans ((expireDuration_injection _).trans (completeDue_injection _)))

/-- Every part of an arrival but INC's own work. -/
theorem arrivalPart_injection (k : ArrivalTaking) (a : Arrival) {p : ArrivalPart} (h : p ≠ .inject) :
    InjectionStep s (arrivalPart k a p s) := by
  cases p <;> simp only [arrivalPart]
  case sense =>
    split
    · exact faultTaken_injection s _ _
    · exact .refl s
  case detect => exact detect_injection s _
  case cycleEnd =>
    split
    · exact cycleEnd_injection s _ _
    · exact .refl s
  case inject => exact absurd rfl h
  case service => exact serviceTest_injection s
  case linkRun => exact linkRunTest_injection s
  case overcurrent => exact overcurrentTest_injection s _
  case closeWaits => exact closeWaits_injection s _ _ _
  case completion =>
    split
    · exact .refl s
    · exact completeDue_injection s

/-! INC's own work, the taking of a set, and the allocation (R67, R97, R98, R99). -/

/-- The ramp factor falls within its range, in RELEASE alone (R99). -/
theorem rampStep_fractions (hs : FractionsBounded s) : FractionsBounded (rampStep s) := by
  by_cases h : s.rsq.state = .release
  · rw [rampStep_of_release h]
    refine ⟨fun hi => ?_, ?_, hs.ratio, hs.lowest, hs.allocated⟩
    · exact absurd (h.symm.trans hi) (by decide)
    · exact Nat.div_le_of_le_mul (by rw [Nat.mul_comm]; exact Nat.mul_le_mul_right _ (Nat.sub_le _ _))
  · rwa [rampStep_of_not_release h]

theorem injectSet_fractions (n : Nat) (x : SampleSet) (hs : FractionsBounded s) :
    FractionsBounded (injectSet n x s) := by
  unfold injectSet
  split
  · exact (rampStep_fractions s hs).of_same id rfl rfl rfl rfl
  · exact hs

theorem arrivalPart_fractions (k : ArrivalTaking) (a : Arrival) (p : ArrivalPart) (hs : FractionsBounded s) :
    FractionsBounded (arrivalPart k a p s) := by
  by_cases h : p = .inject
  · subst h
    exact injectSet_fractions s _ _ hs
  · exact (arrivalPart_injection s k a h).fractions hs

theorem takeSet_fractions (n : Nat) (g : Option SampleSet) (hs : FractionsBounded s) :
    FractionsBounded (takeSet n g s) :=
  hs.of_same (by rw [takeSet_state]; exact id) (by simp) (by simp) (by simp) (by simp)

/-- The ratio handed at a frame end is a grant's share of its demand (R66, R67, R105). -/
theorem allocate_fractions (hs : FractionsBounded s) : FractionsBounded (allocate s) where
  full := hs.full
  ramp := hs.ramp
  ratio := grantRatio_le_one _ _
  lowest := by
    simp only [allocate, handRatio]
    split
    · exact (Nat.min_le_left _ _).trans hs.lowest
    · exact hs.lowest
  allocated := grantRatio_le_one _ _

end Sys2Proof.Machine
end

section
/-! SUPPORT. What each command makes of the restorer's outputs and of INC's fractions: the arrivals and the timed steps
by their parts, the inputs, the frame end, the requests and the resets (R57, R98, R101, R105, R109, R178). -/

namespace Sys2Proof.Machine

/-- A change that keeps the outputs in agreement with the restorer, and the fractions in their range. -/
structure PlantStep (s u : State) : Prop where
  outputs : OutputsAgree s → OutputsAgree u
  fractions : FractionsBounded s → FractionsBounded u

namespace PlantStep

theorem refl (s : State) : PlantStep s s := ⟨id, id⟩

theorem trans {s u v : State} (h : PlantStep s u) (h' : PlantStep u v) : PlantStep s v :=
  ⟨h'.outputs ∘ h.outputs, h'.fractions ∘ h.fractions⟩

/-- The same, the later change named first. -/
theorem after {s u v : State} (h' : PlantStep u v) (h : PlantStep s u) : PlantStep s v := h.trans h'

theorem of_steps {s u : State} (h : RestorerStep s u) (h' : InjectionStep s u) : PlantStep s u :=
  ⟨h.outputs, h'.fractions⟩

/-- The restorer stays in its state, with its outputs and INC as they are. -/
theorem of_same {s u : State} (state : u.rsq.state = s.rsq.state) (bridge : u.rsq.bridge = s.rsq.bridge)
    (bypass : u.rsq.bypassOpen = s.rsq.bypassOpen) (inc : u.inc = s.inc) (esa : u.esa = s.esa) : PlantStep s u where
  outputs h := by
    have hact := eventActive_congr state
    exact ⟨by rw [bridge, hact]; exact h.bridge, by rw [state, bypass]; exact h.injectOpen,
      by rw [state, bypass]; exact h.releaseOpen, by rw [hact, bypass]; exact h.closed,
      by rw [hact, inc]; exact h.port⟩
  fractions h := h.of_same (by rw [state]; exact id) (by rw [inc]) (by rw [inc]) (by rw [inc]) esa

/-- Blocks other than RSQ, INC and ESA change. -/
theorem of_blocks {s u : State} (rsq : u.rsq = s.rsq) (inc : u.inc = s.inc) (esa : u.esa = s.esa) : PlantStep s u :=
  of_same (by rw [rsq]) (by rw [rsq]) (by rw [rsq]) inc esa

/-- The restorer goes from a state outside an event to another, its outputs off as they were. -/
theorem of_idle {s u : State} (before : eventActive s = false) (after : eventActive u = false)
    (bridge : u.rsq.bridge = s.rsq.bridge) (bypass : u.rsq.bypassOpen = s.rsq.bypassOpen) (inc : u.inc = s.inc)
    (esa : u.esa = s.esa) : PlantStep s u where
  outputs h := by
    refine ⟨by rw [bridge, after, h.bridge, before], fun hi => ?_, fun hr => ?_, fun _ => bypass ▸ h.closed before,
      fun _ => inc ▸ h.port before⟩
    · simp [eventActive, hi] at after
    · simp [eventActive, hr] at after
  fractions h := h.of_same (fun hi => by simp [eventActive, hi] at after) (by rw [inc]) (by rw [inc]) (by rw [inc]) esa

/-- RSQ but for its event counter, INC and ESA stand as a reset leaves them (R71, R108, R134). -/
theorem of_reset {s u : State} {n : Word} (rsq : u.rsq = { Rsq.initial with eventCounter := n })
    (inc : u.inc = Inc.initial) (esa : u.esa = Esa.initial) : PlantStep s u :=
  have same : PlantStep State.reset u := .of_same (by rw [rsq]; rfl) (by rw [rsq]; rfl) (by rw [rsq]; rfl) inc esa
  ⟨fun _ => same.outputs outputsAgree_reset, fun _ => same.fractions fractionsBounded_reset⟩

end PlantStep

variable (s : State)

/-! The resets (R57, R177, R178). -/

theorem initialState_plant : PlantStep s (initialState s) := .of_reset (n := 0) rfl rfl rfl

theorem startUp_plant (x : BitVec 4) : PlantStep s (startUp x s) := .of_blocks (by simp) (by simp) (by simp)

theorem carryOutReset_plant (x : BitVec 4) : PlantStep s (carryOutReset x s) :=
  .of_reset (n := s.rsq.eventCounter) (by rw [carryOutReset_eq]) (by rw [carryOutReset_eq]; rfl)
    (by rw [carryOutReset_eq]; rfl)

theorem moveTo_plant (t : Nat) : PlantStep s (s.moveTo t) := .of_blocks rfl rfl rfl

/-! Arrivals and strobes. -/

theorem settleDue_plant : PlantStep s (settleDue s) := .of_steps (settleDue_step s) (settleDue_injection s)

theorem takeSet_plant (n : Nat) (g : Option SampleSet) : PlantStep s (takeSet n g s) :=
  ⟨(takeSet_step s n g).outputs, takeSet_fractions s n g⟩

theorem arrivalPart_plant (k : ArrivalTaking) (a : Arrival) (p : ArrivalPart) : PlantStep s (arrivalPart k a p s) :=
  ⟨(arrivalPart_step s k a p).outputs, arrivalPart_fractions s k a p⟩

theorem arrive_plant (k : ArrivalTaking) (n : Nat) (g : Option SampleSet) : PlantStep s (arrive k n g s) :=
  arrive_induct s (PlantStep s) k n g ((settleDue_plant s).trans (takeSet_plant _ n g))
    (fun a p u hu => hu.trans (arrivalPart_plant u k a p)) (fun x u _ _ hu => hu.trans (carryOutReset_plant u x))

theorem deadlinePasses_plant (k : ArrivalTaking) : PlantStep s (deadlinePasses k s) := by
  unfold deadlinePasses
  split
  · exact (moveTo_plant s _).trans (arrive_plant _ k _ none)
  · exact .refl s

theorem setArrives_plant (t : Nat) (x : RawSet) (k : ArrivalTaking) : PlantStep s (setArrives t x k s) := by
  unfold setArrives
  split
  · split
    · exact (deadlinePasses_plant s k).trans (moveTo_plant _ t)
    · exact (moveTo_plant s t).trans (arrive_plant _ k _ _)
  · exact moveTo_plant s t

theorem strobeTime_plant : PlantStep s (strobeTime s) := .of_blocks (by simp) (by simp) (by simp)

/-! The load, ENABLE and the fault inputs (R110, R112, R121, R128, R174). -/

theorem leaveOff_plant : PlantStep s (leaveOff s) := by
  unfold leaveOff
  split
  · rename_i h
    refine .of_idle (by simp [eventActive, h.1]) ?_ rfl rfl rfl rfl
    simp only [enterCharge, eventActive]
    split <;> rfl
  · exact .refl s

theorem endLoad_plant (r : LoadResult) : PlantStep s (endLoad r s) := by
  unfold endLoad
  split
  · exact .after (leaveOff_plant _) (.of_blocks (by simp) (by simp) (by simp))
  · exact .refl s

theorem exitInject_plant (c : EndCause) : PlantStep s (exitInject c s) :=
  .of_steps (exitInject_step s c) (exitInject_injection s c)

theorem disable_plant : PlantStep s (disable s) := by
  unfold disable
  split
  case h_1 h => exact .of_idle (by simp [eventActive, h]) rfl rfl rfl rfl rfl
  case h_2 h => exact .of_idle (by simp [eventActive, h]) rfl rfl rfl rfl rfl
  case h_3 => exact exitInject_plant s _
  case h_4 => exact .refl s

theorem assertFault_plant (f : FaultInput) (k : CompletionTaking) : PlantStep s (assertFault f k s) := by
  unfold assertFault
  dsimp only
  split
  · exact .of_blocks rfl rfl rfl
  · exact .after (.of_steps (faultTaken_step _ k _) (faultTaken_injection _ k _)) (.of_blocks rfl rfl rfl)

/-! The line and the frame end (R55, R67, R69, R111, R118). -/

theorem readyTest_plant : PlantStep s (readyTest s) := .of_steps (readyTest_step s) (readyTest_injection s)

theorem takeReadback_plant (bytes : List Byte) : PlantStep s (takeReadback bytes s) := by
  unfold takeReadback
  split
  · exact .of_same rfl rfl rfl rfl rfl
  · exact .refl s

theorem transmitAt_plant (t : Nat) : PlantStep s (transmitAt t s) := .of_blocks (by simp) (by simp) (by simp)

theorem startAlone_plant : PlantStep s (startAlone s) := by
  unfold startAlone
  split
  · exact .after (transmitAt_plant _ _) (.after (readyTest_plant _) (.of_blocks rfl rfl rfl))
  · exact .refl s

/-- The demand window is no fraction (R69). -/
theorem setDemand_plant : PlantStep s (setDemand s) where
  outputs := (RestorerStep.of_same rfl rfl rfl rfl rfl : RestorerStep s (setDemand s)).outputs
  fractions h := h.of_same id rfl rfl rfl rfl

theorem frameEndSlc_plant (t : Nat) : PlantStep s (frameEndSlc t s) := by
  have steps : PlantStep s (slcSteps t s) := (setDemand_plant s).trans
    (.of_blocks (by simp [slcSteps, prepared]) (by simp [slcSteps, prepared]) (by simp [slcSteps, prepared]))
  rw [frameEndSlc_eq, handMembership]
  split
  · exact steps
  · exact steps.trans (readyTest_plant _)

theorem allocate_plant : PlantStep s (allocate s) where
  outputs := (RestorerStep.of_same rfl rfl rfl rfl rfl : RestorerStep s (allocate s)).outputs
  fractions := allocate_fractions s

theorem exhaustTest_plant : PlantStep s (exhaustTest s) := by
  unfold exhaustTest
  split
  · exact exitInject_plant s _
  · exact .refl s

theorem windowStep_step (b b' : Bool) : RestorerStep s (windowStep b b' s) := by
  unfold windowStep
  dsimp only
  (repeat' split)
  · exact .after (applyAction_step _ _ _ _) (.of_blocks rfl rfl rfl)
  · exact .after (applyAction_step _ _ _ _) (.of_blocks rfl rfl rfl)
  · exact .of_blocks rfl rfl rfl
  · exact .refl s

/-! Requests (R115, R131, R132, R148). -/

/-- LOCKOUT is left for OFF or CHARGE, the outputs off as they were (R131). -/
theorem clearLockout_plant (g : Nat) (tag : BitVec 4) : PlantStep s (clearLockout g tag s) := by
  unfold clearLockout
  split
  · rename_i h
    split
    · exact .of_blocks (by simp) (by simp) (by simp)
    · refine .of_idle (by simp [eventActive, h]) ?_ (by simp [leaveLockout]) (by simp [leaveLockout]) (by simp)
        (by simp)
      rw [eventActive_congr (s := leaveLockout s) (by simp)]
      simp only [leaveLockout, eventActive]
      split <;> rfl
  · exact .of_blocks (by simp) (by simp) (by simp)

theorem testCapture_plant (g : Nat) (tag : BitVec 4) : PlantStep s (testCapture g tag s) := by
  unfold testCapture
  split
  · exact .of_blocks (by simp) (by simp) (by simp)
  · split
    · exact .of_blocks (by simp) (by simp) (by simp)
    · exact .of_same (by simp) (by simp) (by simp) (by simp) (by simp)

theorem softReset_plant (g : Nat) (tag : BitVec 4) : PlantStep s (softReset g tag s) := by
  unfold softReset setQuiesce
  split <;> exact .of_same (by simp) (by simp) (by simp) (by simp) (by simp)

theorem executeStanding_plant : PlantStep s (executeStanding s) := by
  unfold executeStanding
  split
  · exact .refl s
  · dsimp only
    split
    case h_5 => exact clearLockout_plant s _ _
    case h_6 => exact testCapture_plant s _ _
    case h_7 => exact softReset_plant s _ _
    all_goals exact .of_blocks (by simp) (by simp) (by simp)

theorem framePart_plant (k : FrameTaking) (t : Nat) (p : FramePart) : PlantStep s (framePart k t p s) := by
  cases p <;> simp only [framePart]
  case allocate => exact allocate_plant s
  case exhaust => exact exhaustTest_plant s
  case classify => exact .of_steps (windowStep_step s _ _) (windowStep_injection s _ _)
  case execute => exact executeStanding_plant s
  all_goals exact .of_blocks (by simp) (by simp) (by simp)

theorem frameEnd_plant (k : FrameTaking) (t : Nat) : PlantStep s (frameEnd k t s) :=
  frameEnd_induct s (PlantStep s) k t (frameEndSlc_plant s t) (fun p u hu => hu.trans (framePart_plant u k t p))

theorem slotStarts_plant (k : FrameTaking) : PlantStep s (slotStarts k s) := by
  unfold slotStarts
  split
  · dsimp only
    split
    · exact .after (frameEnd_plant _ k _) (.of_blocks rfl rfl rfl)
    · exact .after (transmitAt_plant _ _) (.of_blocks rfl rfl rfl)
  · exact .refl s

/-! Every command. -/

theorem effect_plant (c : Instr) : PlantStep s (effect c s) := by
  cases c <;> simp only [effect]
  case powerOn => exact initialState_plant s
  case resetAsserted => exact initialState_plant s
  case resetReleased t x =>
    split
    · exact .after (startUp_plant _ x) (.of_reset (n := 0) rfl rfl rfl)
    · exact moveTo_plant s t
  case memoryNoAnswer t => exact (moveTo_plant s t).trans (endLoad_plant _ _)
  case loadCompletion t image => exact (moveTo_plant s t).trans (endLoad_plant _ _)
  case enableAsserted => exact .after (leaveOff_plant _) (.of_blocks rfl rfl rfl)
  case enableDeasserted => exact .after (disable_plant _) (.of_blocks rfl rfl rfl)
  case faultInputActive t f k => exact (moveTo_plant s t).trans (assertFault_plant _ f k)
  case strobe => exact (deadlinePasses_plant s _).trans (strobeTime_plant _)
  case sampleSetArrival t x k => exact setArrives_plant s t x k
  case arrivalDeadline k => exact deadlinePasses_plant s k
  case holdoverLimit => exact .of_steps (holdoverLimitReached_step s) (holdoverLimitReached_injection s)
  case closeWaitTimeout p k => exact .of_steps (closeTimedOut_step s k _) (closeTimedOut_injection s k _)
  case durationExpiry => exact .of_steps (expireDuration_step s) (expireDuration_injection s)
  case blockReceived t own bytes =>
    split
    · exact (moveTo_plant s t).trans (takeReadback_plant _ bytes)
    · exact .of_blocks (by simp) (by simp) (by simp)
  case startAlone => exact startAlone_plant s
  case slotStart k => exact slotStarts_plant s k
  case clearLockout g tag =>
    split
    · exact clearLockout_plant s g tag
    · exact .refl s
  case testCapture g tag =>
    split
    · exact testCapture_plant s g tag
    · exact .refl s
  case softReset g tag =>
    split
    · exact softReset_plant s g tag
    · exact .refl s
  case softResetCarriedOut t x =>
    split
    · exact (moveTo_plant s t).trans (carryOutReset_plant _ x)
    · exact moveTo_plant s t
  all_goals
    refine .of_blocks ?_ ?_ ?_ <;> (repeat' split) <;> simp

end Sys2Proof.Machine
end

section
/-! The restorer's outputs and INC's fractions through every step (R98, R99, R101, R105, R109). -/

namespace Sys2Proof.Machine

/-- Settles O29: every command keeps the outputs in agreement with the restorer, whatever the queue. -/
theorem outputsAgreeKept : Obligations.OutputsAgreeKept := by
  unfold Obligations.OutputsAgreeKept
  intro s u hs
  exact step_induct_effect OutputsAgree
    (fun s q => (PlantStep.of_blocks rfl rfl rfl : PlantStep s { s with pending := q }).outputs)
    (fun c s => (effect_plant s c).outputs) hs

/-- Settles O37: every command keeps the fractions in their range, whatever the queue. -/
theorem fractionsBoundedKept : Obligations.FractionsBoundedKept := by
  unfold Obligations.FractionsBoundedKept
  intro s u hs
  exact step_induct_effect FractionsBounded
    (fun s q => (PlantStep.of_blocks rfl rfl rfl : PlantStep s { s with pending := q }).fractions)
    (fun c s => (effect_plant s c).fractions) hs

end Sys2Proof.Machine
end

section
/-! SUPPORT. The port within the limits: the values that INC writes, and what the rest of an arrival leaves of them (R94
to R98, R101). -/

namespace Sys2Proof.Machine

/-! The chain of a handled set (R94 to R98). -/

/-- A saturated value lies within its limit, and no further from 0 than before. -/
theorem natAbs_saturate_le (limit : Nat) (x : Int) :
    (saturate limit x).natAbs ≤ limit ∧ (saturate limit x).natAbs ≤ x.natAbs := by
  have := saturate_spec limit x
  omega

/-- A fraction of 32768 brings a value no further from 0. -/
theorem natAbs_scale_le {f : Nat} (hf : f ≤ 32768) (x : Int) : (scale f x).natAbs ≤ x.natAbs := by
  unfold scale
  rw [Int.natAbs_tdiv, Int.natAbs_mul, Int.natAbs_natCast]
  exact Nat.div_le_of_le_mul (by rw [Nat.mul_comm]; exact Nat.mul_le_mul_right _ hf)

/-- Every value lies within U_max and the link limit of a set. -/
def PortWithin (c : Config.Settings) (link : Nat) (port : Phases Int) : Prop :=
  ∀ p, (port.get p).natAbs ≤ c.uMax ∧ (port.get p).natAbs ≤ linkLimitOf c link

theorem portWithin_zero (c : Config.Settings) (link : Nat) : PortWithin c link (Phases.same 0) := by
  intro p
  cases p <;> exact ⟨Nat.zero_le _, Nat.zero_le _⟩

/-- Both clamps bound the clamped values (R94, R95). -/
theorem portWithin_clampedValues (s : State) (n : Nat) (x : SampleSet) :
    PortWithin s.settings x.link (clampedValues s n x) := by
  intro p
  simp only [clampedValues, get_map]
  have rating := natAbs_saturate_le s.settings.uMax ((rawValues s n x).get p)
  have link := natAbs_saturate_le (linkLimitOf s.settings x.link) (saturate s.settings.uMax ((rawValues s n x).get p))
  exact ⟨link.2.trans rating.1, link.1⟩

/-- A scaling by a fraction keeps within the limits (R97, R98). -/
theorem PortWithin.scale {c : Config.Settings} {link f : Nat} {port : Phases Int} (h : PortWithin c link port)
    (hf : f ≤ 32768) : PortWithin c link (port.map (scale f)) := by
  intro p
  have near := natAbs_scale_le hf (port.get p)
  rw [get_map]
  exact ⟨near.trans (h p).1, near.trans (h p).2⟩

/-- What INC writes to the port on a handled set (R94 to R101). -/
theorem portWithin_injectSet {s : State} (n : Nat) (x : SampleSet) (h : handles s = true) (hs : FractionsBounded s) :
    PortWithin s.settings x.link (injectSet n x s).inc.port := by
  have chain := injectSet_of_handled n x h
  dsimp only at chain
  rw [chain]
  exact ((portWithin_clampedValues s n x).scale (rampStep_fractions s hs).ramp).scale hs.ratio

/-! The parts of an arrival, in every order. -/

/-- While the parts of an arrival are taken: its set and settings stand, the two invariants hold, and once an onset has
been acted on the port lies within the limits. -/
structure ArrivalSafe (c : Config.Settings) (set : SampleSet) (u : State) : Prop where
  settings : u.settings = c
  lastGood : u.spt.lastGood = set
  outputs : OutputsAgree u
  fractions : FractionsBounded u
  onset : u.rsq.onsetArrival = true → PortWithin c set.link u.inc.port

variable {c : Config.Settings} {set : SampleSet} {u : State}

/-- A part other than INC's leaves the port within the limits where it was so (R101). -/
theorem InjectionStep.portWithin {s u : State} (h : InjectionStep s u) {link : Nat}
    (hs : PortWithin c link s.inc.port) : PortWithin c link u.inc.port := by
  rcases h.port with ⟨port, -⟩ | zero
  · rwa [port]
  · rw [zero]
    exact portWithin_zero c link

/-- INC's own part brings the port within the limits: it writes it, or an onset has done so, or no event is active and
it carries 0 (R89, R101). -/
theorem injectPart_portWithin (k : ArrivalTaking) (a : Arrival) (hu : ArrivalSafe c set u) :
    PortWithin c set.link (arrivalPart k a .inject u).inc.port := by
  cases hh : handles u
  · simp only [arrivalPart, injectSet_of_not_handled _ _ hh]
    cases hact : eventActive u
    · rw [hu.outputs.port hact]
      exact portWithin_zero c set.link
    · exact hu.onset (by simpa [handles, hact] using hh)
  · simpa only [arrivalPart, hu.settings, hu.lastGood] using
      portWithin_injectSet a.index u.spt.lastGood hh hu.fractions

/-- Each part keeps the port within the limits: INC writes such values, and the others none but 0. -/
theorem arrivalPart_portWithin (k : ArrivalTaking) (a : Arrival) (p : ArrivalPart) (hu : ArrivalSafe c set u)
    (h : PortWithin c set.link u.inc.port) : PortWithin c set.link (arrivalPart k a p u).inc.port := by
  by_cases hp : p = .inject
  · subst hp
    exact injectPart_portWithin k a hu
  · exact (arrivalPart_injection u k a hp).portWithin h

theorem arrivalPart_safe (k : ArrivalTaking) (a : Arrival) (p : ArrivalPart) (hu : ArrivalSafe c set u) :
    ArrivalSafe c set (arrivalPart k a p u) where
  settings := by simpa [State.settings] using hu.settings
  lastGood := by simpa using hu.lastGood
  outputs := (arrivalPart_plant u k a p).outputs hu.outputs
  fractions := (arrivalPart_plant u k a p).fractions hu.fractions
  onset h := by
    by_cases hp : p = .inject
    · subst hp
      exact injectPart_portWithin k a hu
    · rcases (arrivalPart_injection u k a hp).port with ⟨-, mark⟩ | zero
      · exact arrivalPart_portWithin k a p hu (hu.onset (mark ▸ h))
      · rw [zero]
        exact portWithin_zero c set.link

/-- The taking of a set clears the mark of an onset's arrival (R89). -/
theorem takeSet_onsetArrival (n : Nat) (g : Option SampleSet) (s : State) :
    (takeSet n g s).rsq.onsetArrival = false := by
  unfold takeSet beginWaits
  dsimp only
  split <;> simp

/-- The parts of an arrival are all taken, or a soft reset abandons them (R132). -/
theorem takeParts_cases (k : ArrivalTaking) (a : Arrival) (ps : List ArrivalPart) (s : State) :
    takeParts k a ps s = ps.foldl (fun u p => arrivalPart k a p u) s ∨
    ∃ x v, takeParts k a ps s = carryOutReset x v := by
  induction ps generalizing s with
  | nil =>
    unfold takeParts
    split
    · exact .inr ⟨_, _, rfl⟩
    · exact .inl rfl
  | cons p ps ih =>
    unfold takeParts
    split
    · exact .inr ⟨_, _, rfl⟩
    · exact ih _

/-- After an arrival the port lies within the limits of the set that stands then (R94, R95, R101). -/
theorem arrive_portWithin (k : ArrivalTaking) (n : Nat) (g : Option SampleSet) {s : State} (ho : OutputsAgree s)
    (hf : FractionsBounded s) :
    PortWithin s.settings (arrive k n g s).spt.lastGood.link (arrive k n g s).inc.port := by
  let started := takeSet n g (settleDue s)
  have plant : PlantStep s started := (settleDue_plant s).trans (takeSet_plant _ n g)
  have start : ArrivalSafe s.settings started.spt.lastGood started :=
    ⟨by simp [started, State.settings], rfl, plant.outputs ho, plant.fractions hf,
      fun mark => absurd mark (by simp [started, takeSet_onsetArrival])⟩
  rw [arrive_eq]
  generalize ({ index := n, before := s.spt.lastGood.i, sense := g.isNone && s.spt.missRun == 3 } : Arrival) = a
  rcases takeParts_cases k a (arrivalOrder k) started with taken | ⟨x, v, reset⟩
  · have mem : ArrivalPart.inject ∈ arrivalOrder k := List.count_pos_iff.mp (by rw [count_arrivalOrder]; decide)
    obtain ⟨safe, within⟩ := foldl_reaches (fun u p => arrivalPart k a p u)
      (ArrivalSafe s.settings started.spt.lastGood)
      (fun u => ArrivalSafe s.settings started.spt.lastGood u ∧
        PortWithin s.settings started.spt.lastGood.link u.inc.port) .inject
      (fun u p hu => arrivalPart_safe k a p hu)
      (fun u hu => ⟨arrivalPart_safe k a _ hu, injectPart_portWithin k a hu⟩)
      (fun u p hu ⟨_, hq⟩ => ⟨arrivalPart_safe k a p hu, arrivalPart_portWithin k a p hu hq⟩) mem start
    rw [taken, safe.lastGood]
    exact within
  · rw [reset, carryOutReset_eq]
    exact portWithin_zero _ _

theorem deadlinePasses_portWithin (k : ArrivalTaking) {s : State} (h : s.spt.outstanding.isSome = true)
    (ho : OutputsAgree s) (hf : FractionsBounded s) :
    PortWithin s.settings (deadlinePasses k s).spt.lastGood.link (deadlinePasses k s).inc.port := by
  obtain ⟨o, h⟩ := Option.isSome_iff_exists.mp h
  rw [deadlinePasses_of_some k h]
  exact arrive_portWithin (s := s.moveTo o.deadline) k _ none ((moveTo_plant s _).outputs ho)
    ((moveTo_plant s _).fractions hf)

/-- A set in time is an arrival, and a late one finds the deadline passed (R3). -/
theorem setArrives_portWithin (t : Nat) (x : RawSet) (k : ArrivalTaking) {s : State}
    (h : s.spt.outstanding.isSome = true) (ho : OutputsAgree s) (hf : FractionsBounded s) :
    PortWithin s.settings (setArrives t x k s).spt.lastGood.link (setArrives t x k s).inc.port := by
  obtain ⟨o, owed⟩ := Option.isSome_iff_exists.mp h
  rcases Nat.lt_or_ge (max s.now t) o.deadline with inTime | late
  · rw [setArrives_in_time x k owed inTime]
    exact arrive_portWithin (s := s.moveTo t) k _ _ ((moveTo_plant s t).outputs ho) ((moveTo_plant s t).fractions hf)
  · rw [setArrives_late x k owed late]
    exact deadlinePasses_portWithin k h ho hf

end Sys2Proof.Machine
end

section
/-! The port after the outcome of a strobe (R94, R95, R98, R101, R109). -/

namespace Sys2Proof.Machine

/-- Settles O36: a set that arrives and a deadline that passes, each with a strobe outstanding and without. -/
theorem portWithinLimits : Obligations.PortWithinLimits := by
  unfold Obligations.PortWithinLimits
  rintro c s u (⟨t, x, k, rfl⟩ | ⟨k, rfl⟩) h
  · obtain rfl := exec_next_iff.mp h
    refine ⟨fun idle => ?_, fun owed ho hf => setArrives_portWithin t x k owed ho hf⟩
    simp [effect, setArrives_of_none t x k idle]
  · obtain rfl := exec_next_iff.mp h
    refine ⟨fun idle => ?_, fun owed ho hf => deadlinePasses_portWithin k owed ho hf⟩
    simp [effect, deadlinePasses_of_none k idle]

end Sys2Proof.Machine
end

section
/-! INC at the resets, the rating clamp, and the energy of an event (R71, R94, R104, R108, R170). -/

namespace Sys2Proof.Machine

/-- Settles O5: power-on and RESET lead to the initial state, a soft reset to its own, with INC initial in each. -/
theorem injectionInitialState : Obligations.InjectionInitialState := by
  unfold Obligations.InjectionInitialState
  refine ⟨fun s => ⟨_, exec_eq_effect .powerOn s, rfl⟩, fun s => ⟨_, exec_eq_effect .resetAsserted s, rfl⟩,
    fun t straps s h => ⟨_, exec_softResetCarriedOut_of_ready t straps h, ?_⟩⟩
  rw [carryOutReset_eq]
  rfl

/-! The rating clamp (R94). -/

/-- Settles O33: the three cases of a value against U_max, and the range that a load leaves U_max in. -/
theorem ratingClamp : Obligations.RatingClamp := by
  unfold Obligations.RatingClamp
  refine ⟨fun c u => ?cases, fun s k set => rfl, fun c => ?range, rfl⟩
  case cases =>
    obtain ⟨-, -, between, above, below⟩ := saturate_spec c.uMax u
    exact ⟨above, below, between⟩
  case range =>
    simp only [clampCross, clampRanges, clampNat]
    omega

/-! The energy of an event (R104). -/

/-- The quotient that the joules saturate. -/
def jouleQuotient (s : State) : Int := Int.fdiv s.inc.energy (1280 * s.settings.fNom)

theorem joules_eq (s : State) : joules s = max (-2147483648) (min (jouleQuotient s) 2147483647) := rfl

/-- It is the floor of the energy sum over 1280·f_nom. -/
theorem jouleQuotient_floor {s : State} (h : 0 < s.settings.fNom) :
    jouleQuotient s * (1280 * s.settings.fNom) ≤ s.inc.energy ∧
    s.inc.energy < (jouleQuotient s + 1) * (1280 * s.settings.fNom) := by
  have pos : (0 : Int) < 1280 * s.settings.fNom := by omega
  unfold jouleQuotient
  rw [Int.fdiv_eq_ediv_of_nonneg _ pos.le]
  exact ⟨Int.ediv_mul_le _ pos.ne', Int.lt_ediv_add_one_mul_self _ pos⟩

theorem jouleQuotient_neg {s : State} (h : 0 < s.settings.fNom) (negative : s.inc.energy < 0) :
    jouleQuotient s < 0 := by
  obtain ⟨floor, -⟩ := jouleQuotient_floor h
  exact neg_of_mul_neg_left (floor.trans_lt negative) (by omega)

theorem joules_of_between {s : State} (lo : -2147483648 ≤ jouleQuotient s) (hi : jouleQuotient s ≤ 2147483647) :
    joules s = jouleQuotient s := by
  rw [joules_eq]
  omega

/-- Settles O34: the joules saturate a floored quotient, which has the sign of the energy sum. -/
theorem eventEnergy : Obligations.EventEnergy := by
  unfold Obligations.EventEnergy
  refine ⟨?joules, fun s => rfl, by decide⟩
  intro s h q
  refine ⟨rfl, fun below => ?_, fun above => ?_, fun lo hi => ?_, fun zero => ?_, fun negative => ?_⟩
  · have hq : jouleQuotient s < -2147483648 := below
    rw [joules_eq]
    omega
  · have hq : 2147483647 < jouleQuotient s := above
    rw [joules_eq]
    omega
  · rw [joules_of_between lo hi]
    exact jouleQuotient_floor h
  · have nothing : jouleQuotient s = 0 := by simp [jouleQuotient, zero]
    rw [joules_eq, nothing]
    decide
  · have below : jouleQuotient s < 0 := jouleQuotient_neg h negative
    rw [joules_eq]
    omega

end Sys2Proof.Machine
end

section
/-! SUPPORT. The fault inputs, and an event's end at EVC and CST: the classification, the capture that takes what is
handed, and the capture "no" found there (R77, R84, R87, R106, R128, R142, R144, R146). -/

namespace Sys2Proof.Machine

variable {s : State}

/-! The fault inputs (R128, R131). -/

theorem faultActive_iff (s : State) :
    faultActive s = true ↔ (∃ p, s.pins.desat.get p = true) ∨ s.pins.overtemp = true := by
  simp [faultActive, any_iff]

@[simp] theorem get_set_same {α : Type} (x : Phases α) (p : Phase) (v : α) : (x.set p v).get p = v := by
  cases p <;> rfl

theorem get_set_other {α : Type} (x : Phases α) {p q : Phase} (v : α) (h : q ≠ p) :
    (x.set p v).get q = x.get q := by
  revert h
  cases p <;> cases q <;> simp [Phases.get, Phases.set]

/-- The state with a fault input active at an instant, before RSQ takes the fault. -/
def faultAsserted (t : Nat) (f : FaultInput) (s : State) : State :=
  { s with now := max s.now t, pins := s.pins.setFault f true }

theorem exec_faultInputActive_of_first (t : Nat) (f : FaultInput) (k : CompletionTaking)
    (h : faultActive s = false) :
    exec (.faultInputActive t f k) s = .next (faultTaken k .fault (faultAsserted t f s)) := by
  have still : faultActive (s.moveTo t) = false := h
  rw [exec_eq_effect]
  simp only [effect, assertFault, still]
  rfl

theorem exec_faultInputActive_of_active (t : Nat) (f : FaultInput) (k : CompletionTaking) (h : faultActive s = true) :
    exec (.faultInputActive t f k) s = .next (faultAsserted t f s) := by
  have still : faultActive (s.moveTo t) = true := h
  rw [exec_eq_effect]
  simp only [effect, assertFault, still]
  rfl

/-! EVC at an event's end (R77, R84, R87). -/

theorem handEnd_evc_of_open (k : CompletionTaking) (h : s.evc.window = true) :
    (handEnd k s).evc = { s.evc with
      eventClass := endClass s, window := false, matched := (searchTable (endClass s) s).map Prod.fst
      override := none, expiryDue := false } := by
  have evc : (handEnd k s).evc = (classifyAtEnd (captureEnded (quietBlocks s))).evc := by simp [handEnd]
  have opened : (captureEnded (quietBlocks s)).evc.window = true := h
  have search : endSearch (captureEnded (quietBlocks s)) = searchTable (endClass s) s := if_pos h
  rw [evc, classifyAtEnd, if_pos opened, search]
  rfl

theorem endCaptureNo_iff (s : State) : endCaptureNo s = true ↔
    s.evc.window = true ∧ ∃ n e, searchTable (endClass s) s = some (n, e) ∧ e.capture = false := by
  unfold endCaptureNo endSearch
  cases s.evc.window with
  | false => simp
  | true =>
    cases searchTable (endClass s) s with
    | none => simp
    | some p => simp [Prod.ext_iff]

/-! CST at an event's end (R106, R140, R144, R146). -/

/-- A record in making is that of the event that ends (R144). -/
def EndsHere (s : State) (m : Making) : Prop := m.onset.event = s.rsq.event ∧ m.ended = none

/-- The record with what is handed at the event's end. -/
def Making.handed (s : State) (m : Making) : Making := { m with ended := some (endFields s) }

theorem captureEnded_filling_of_own {c : Capture} (hf : s.cst.filling = some c) (ht : c.test = false)
    (ho : EndsHere s c.making) :
    (captureEnded s).cst.filling = some { c with making := c.making.handed s, tail := some 0 } := by
  obtain ⟨event, ended⟩ := ho
  simp [captureEnded, hf, ht, event, ended, Making.handed]

theorem captureEnded_filling_of_other {c : Capture} (hf : s.cst.filling = some c)
    (ho : c.test = true ∨ c.making.onset.event ≠ s.rsq.event) : (captureEnded s).cst.filling = some c := by
  rcases ho with h | h <;> simp [captureEnded, hf, h]

theorem captureEnded_queued_of_own {q : Queued} (hq : s.cst.queued = some q) (ho : EndsHere s q.making) :
    (captureEnded s).cst.queued = some { q with making := q.making.handed s } := by
  obtain ⟨event, ended⟩ := ho
  simp [captureEnded, hq, event, ended, Making.handed]

theorem captureEnded_queued_of_other {q : Queued} (hq : s.cst.queued = some q)
    (ho : q.making.onset.event ≠ s.rsq.event) : (captureEnded s).cst.queued = some q := by
  simp [captureEnded, hq, ho]

/-- EVC's own work at the event's end leaves what CST has taken, which the quieted blocks do not reach. -/
theorem classifiedAtEnd_cst (s : State) :
    (classifyAtEnd (captureEnded (quietBlocks s))).cst = (captureEnded s).cst := by
  simp only [classifyAtEnd_frame]
  rfl

/-- What a capture "no" leaves, if it is one (R146). -/
theorem releaseIf_cst (no : Bool) (s : State) :
    (releaseIf no s).cst = { s.cst with
      filling := s.cst.filling.filter (fun c => !no || c.test || c.making.onset.event != s.rsq.event)
      queued := s.cst.queued.filter (fun q => !no || q.making.onset.event != s.rsq.event) } := by
  have stands {α : Type} (o : Option α) : o.filter (fun _ => true) = o := by cases o <;> rfl
  cases no with
  | false => simp [releaseIf, stands]
  | true => simp [releaseIf, releaseCapture]

/-- With the completion left apart, CST takes what is handed and then the "no" (R144, R146). -/
theorem handEnd_apart_cst (s : State) :
    (handEnd .apart s).cst = (releaseIf (endCaptureNo s) (captureEnded s)).cst := by
  have cst := classifiedAtEnd_cst s
  have rsq : (classifyAtEnd (captureEnded (quietBlocks s))).rsq = (captureEnded s).rsq := by simp
  have no : endCaptureNo (captureEnded (quietBlocks s)) = endCaptureNo s := rfl
  simp only [handEnd, settleRecord, releaseIf_cst, cst, rsq, no]

/-- The store's cells, pointers and counts stand. -/
theorem handEnd_apart_cst_frame (s : State) :
    (handEnd .apart s).cst =
      { s.cst with filling := (handEnd .apart s).cst.filling, queued := (handEnd .apart s).cst.queued } := by
  rw [handEnd_apart_cst, releaseIf_cst]
  rfl

theorem handEnd_apart_of_none (s : State) :
    (s.cst.filling = none → (handEnd .apart s).cst.filling = none) ∧
    (s.cst.queued = none → (handEnd .apart s).cst.queued = none) := by
  rw [handEnd_apart_cst, releaseIf_cst]
  constructor <;> intro h <;> simp [captureEnded, h]

/-- The event's own capture takes what is handed and begins its post tail, or the "no" releases it (R142, R146). -/
theorem handEnd_apart_filling_of_own {c : Capture} (hf : s.cst.filling = some c) (ht : c.test = false)
    (ho : EndsHere s c.making) :
    (handEnd .apart s).cst.filling =
      if endCaptureNo s = true then none else some { c with making := c.making.handed s, tail := some 0 } := by
  obtain ⟨event, ended⟩ := ho
  rw [handEnd_apart_cst, releaseIf_cst, captureEnded_filling_of_own hf ht ⟨event, ended⟩]
  cases endCaptureNo s <;> simp [Making.handed, ht, event]

/-- A test capture in fill, or one of another event, stands. -/
theorem handEnd_apart_filling_of_other {c : Capture} (hf : s.cst.filling = some c)
    (ho : c.test = true ∨ c.making.onset.event ≠ s.rsq.event) : (handEnd .apart s).cst.filling = some c := by
  rw [handEnd_apart_cst, releaseIf_cst, captureEnded_filling_of_other hf ho]
  rcases ho with h | h <;> simp [h]

/-- So with the opening that is queued for the event (R140, R146). -/
theorem handEnd_apart_queued_of_own {q : Queued} (hq : s.cst.queued = some q) (ho : EndsHere s q.making) :
    (handEnd .apart s).cst.queued =
      if endCaptureNo s = true then none else some { q with making := q.making.handed s } := by
  obtain ⟨event, ended⟩ := ho
  rw [handEnd_apart_cst, releaseIf_cst, captureEnded_queued_of_own hq ⟨event, ended⟩]
  cases endCaptureNo s <;> simp [Making.handed, event]

theorem handEnd_apart_queued_of_other {q : Queued} (hq : s.cst.queued = some q)
    (ho : q.making.onset.event ≠ s.rsq.event) : (handEnd .apart s).cst.queued = some q := by
  rw [handEnd_apart_cst, releaseIf_cst, captureEnded_queued_of_other hq ho]
  simp [ho]

/-- A capture that is due with no opening queued behind it is filed, and none is in fill after it (R143). -/
theorem completeDue_of_lone {l : Layout} {c : Capture} (hl : s.cst.layout = some l) (hf : s.cst.filling = some c)
    (hq : s.cst.queued = none) (hd : captureDue s = true) :
    (completeDue s).cst.full = s.cst.full + 1 ∧ (completeDue s).cst.filling = none := by
  have full : (complete s).cst.full = s.cst.full + 1 := by simp [complete, hl, hf, hq]
  have empty : (complete s).cst.filling = none := by simp [complete, hl, hf, hq]
  have once : captureDue (complete s) = false := by simp [captureDue, empty]
  rw [completeDue, if_pos hd, if_neg (by simp [once])]
  exact ⟨full, empty⟩

/-- The capture "no" changes nothing where there is none, so its order with the completion does not matter (log 7). -/
theorem handEnd_before_of_capture (h : endCaptureNo s = false) : handEnd .beforeNo s = handEnd .afterNo s := by
  have yes : endCaptureNo (captureEnded (quietBlocks s)) = false := h
  simp [handEnd, settleRecord, yes, releaseIf]

/-- A completion due at the event's end and taken first files the record, and the "no" finds nothing (R142, R146). -/
theorem handEnd_before_of_due {l : Layout} {c : Capture} (hl : s.cst.layout = some l) (hf : s.cst.filling = some c)
    (ht : c.test = false) (ho : EndsHere s c.making) (hq : s.cst.queued = none)
    (due : l.sets ≤ c.written ∨ (s.settings.postTail = 0 ∧ c.written % 128 = 0)) :
    (handEnd .beforeNo s).cst.full = s.cst.full + 1 ∧ (handEnd .beforeNo s).cst.filling = none := by
  have cst := classifiedAtEnd_cst s
  have cfl : (classifyAtEnd (captureEnded (quietBlocks s))).cfl = s.cfl := by simp
  have layout : (captureEnded s).cst.layout = some l := hl
  have filling := captureEnded_filling_of_own hf ht ho
  have queued : (captureEnded s).cst.queued = none := by simp [captureEnded, hq]
  have isDue : captureDue (classifyAtEnd (captureEnded (quietBlocks s))) = true := by
    simp only [captureDue, State.settings, cst, cfl, layout, filling, ht]
    simpa using due
  obtain ⟨full, empty⟩ := completeDue_of_lone (cst ▸ layout) (cst ▸ filling) (cst ▸ queued) isDue
  rw [cst] at full
  simp only [handEnd, settleRecord, releaseIf_cst, empty]
  exact ⟨full, rfl⟩

end Sys2Proof.Machine
end

section
/-! The fault inputs and an event's end (R77, R84, R87, R101, R106, R124, R128, R130, R131, R142, R144, R146). -/

namespace Sys2Proof.Machine

/-- Settles O22: the fault by the restorer's state, the inputs, then the event's end at EVC and at CST. -/
theorem faultInputsTakeToLockout : Obligations.FaultInputsTakeToLockout := by
  unfold Obligations.FaultInputsTakeToLockout
  refine ⟨?active, fun t f s => exec_eq_effect _ s, fun p b i => ⟨?same, rfl, ?other, rfl⟩, ?hand,
    fun s => ⟨faultActive_iff s, eventActive_iff s⟩⟩
  case same => exact get_set_same _ _ _
  case other => exact fun q hq => get_set_other _ _ hq
  case active =>
    intro t f k s s'
    refine ⟨fun first event => ?_, fun first service => ?_, fun out => ?_⟩
    · have ended := faultTaken_of_event (s := faultAsserted t f s) k .fault event
      refine ⟨_, exec_faultInputActive_of_first t f k first, ?_, ended⟩
      rw [ended]
      exact endEvent_eq _ k .fault .lockout
    · have locked := faultTaken_of_service (s := faultAsserted t f s) k .fault service
      rw [exec_faultInputActive_of_first t f k first, locked]
      rfl
    · cases again : faultActive s with
      | true => exact exec_faultInputActive_of_active t f k again
      | false =>
        have stands := faultTaken_of_out (s := faultAsserted t f s) k .fault (out.resolve_left (by simp [again]))
        rw [exec_faultInputActive_of_first t f k again, stands]
        rfl
  case hand =>
    intro k s cls no handed own u
    have isNo : endCaptureNo s = true ↔ no := endCaptureNo_iff s
    refine ⟨handEnd_eq k s, handEnd_evc_of_closed k, handEnd_evc_of_open k, fun apart => ?apart, rfl, fun h => ?_,
      fun l c _ hl hf ht ho hq due => handEnd_before_of_due hl hf ht ho hq due⟩
    case apart =>
      subst apart
      obtain ⟨noFilling, noQueued⟩ := handEnd_apart_of_none s
      refine ⟨handEnd_apart_cst_frame s, noFilling, noQueued, fun c hf ht ho => ?_,
        fun c hf ho => handEnd_apart_filling_of_other hf ho, fun q hq ho => ?_,
        fun q hq ho => handEnd_apart_queued_of_other hq ho⟩
      · have filling := handEnd_apart_filling_of_own hf ht ho
        exact ⟨fun h => filling.trans (if_neg (h ∘ isNo.mp)), fun h => filling.trans (if_pos (isNo.mpr h))⟩
      · have queued := handEnd_apart_queued_of_own hq ho
        exact ⟨fun h => queued.trans (if_neg (h ∘ isNo.mp)), fun h => queued.trans (if_pos (isNo.mpr h))⟩
    · exact handEnd_before_of_capture (Bool.eq_false_iff.mpr (h ∘ isNo.mp))

end Sys2Proof.Machine
end

section
/-! SUPPORT. ENABLE, the overcurrent run and the close waits, case by case (R110, R122 to R124, R126, R127). -/

namespace Sys2Proof.Machine

variable {s : State}

/-! ENABLE (R110, R128). -/

/-- OFF alone is left, for CHARGE or LOCKOUT, with the settings in force, valid straps and ENABLE asserted. -/
theorem leaveOff_eq (s : State) :
    leaveOff s = { s with rsq := { s.rsq with
      state :=
        if s.rsq.state = .off ∧ s.cfl.source ≠ .loading ∧ (ownSlot s).isSome = true ∧ s.pins.enable = true then
          (if faultActive s = true then .lockout else .charge)
        else s.rsq.state } } := by
  have force : inForce s = true ↔ s.cfl.source ≠ .loading := by simp [inForce]
  unfold leaveOff
  simp only [force]
  split <;> rfl

/-! The overcurrent run (R126, R127). -/

theorem overTrip_iff (s : State) :
    overTrip s = true ↔ ∃ p, s.settings.iTrip < (s.spt.lastGood.i.get p).natAbs := by
  simp [overTrip, any_iff]

theorem overTrip_eq_false_iff (s : State) :
    overTrip s = false ↔ ∀ p, (s.spt.lastGood.i.get p).natAbs ≤ s.settings.iTrip := by
  simp [overTrip, any_eq_false_iff]

theorem overcurrentTest_of_first (k : CompletionTaking) (he : eventActive s = true)
    (ho : s.rsq.onsetArrival = false) (hr : s.rsq.overRun = 0) (trip : overTrip s = true) :
    overcurrentTest k s = { s with rsq := { s.rsq with overRun := 1 } } := by
  simp [overcurrentTest, he, ho, hr, trip]

theorem overcurrentTest_of_later (k : CompletionTaking) (he : eventActive s = true)
    (ho : s.rsq.onsetArrival = false) (hr : s.rsq.overRun ≠ 0) (trip : overTrip s = true) :
    overcurrentTest k s = overcurrentEnd k s := by
  simp [overcurrentTest, he, ho, hr, trip]

theorem overcurrentTest_of_low (k : CompletionTaking) (he : eventActive s = true)
    (ho : s.rsq.onsetArrival = false) (low : overTrip s = false) :
    overcurrentTest k s = { s with rsq := { s.rsq with overRun := 0 } } := by
  simp [overcurrentTest, he, ho, low]

theorem overcurrentTest_of_passed_over (k : CompletionTaking)
    (h : eventActive s = false ∨ s.rsq.onsetArrival = true) : overcurrentTest k s = s := by
  unfold overcurrentTest
  rw [if_neg]
  rcases h with h | h <;> simp [h]

/-- RSQ's own change at an overcurrent end: outputs off, causes set, the end recorded, and the state after it (R124,
R126, R127). -/
def overcurrentEnded (s : State) : State :=
  { s with rsq := { s.rsq with
      state := overcurrentTarget (addOverEnd s.rsq.overEnds s.rsq.cycleCount) s
      bridge := false, bypassOpen := Phases.same false, waits := Phases.same none, overRun := 2
      endCause := .overcurrent, lastEndCause := .overcurrent
      overEnds := addOverEnd s.rsq.overEnds s.rsq.cycleCount
      overEndCount := satInc s.rsq.overEndCount } }

theorem overcurrentEnd_eq (k : CompletionTaking) (s : State) :
    overcurrentEnd k s = handEnd k (overcurrentEnded s) := rfl

theorem releaseTarget_of_disabled (he : s.pins.enable = false) : releaseTarget s = .off := if_pos he

theorem releaseTarget_of_enabled (he : s.pins.enable = true) :
    releaseTarget s = if s.settings.linkReady ≤ s.spt.lastGood.link then .ready else .charge := by
  simp [releaseTarget, he]

/-- The span of a full list calls for LOCKOUT (R127). -/
theorem callsLockout_three (a b c : Word) : callsLockout [a, b, c] = true ↔ (c - a).toNat ≤ 500 := by
  simp [callsLockout]

/-! Bypasses closing (R122, R123, R124). -/

theorem phases_ext {α : Type} {x y : Phases α} (h : ∀ p, x.get p = y.get p) : x = y := by
  have ha : x.a = y.a := h .a
  have hb : x.b = y.b := h .b
  have hc : x.c = y.c := h .c
  cases x
  simp_all

@[simp] theorem get_map2 {α β γ : Type} (f : α → β → γ) (x : Phases α) (y : Phases β) (p : Phase) :
    (Phases.map2 f x y).get p = f (x.get p) (y.get p) := by
  cases p <;> rfl

@[simp] theorem get_map3 {α β γ δ : Type} (f : α → β → γ → δ) (x : Phases α) (y : Phases β) (z : Phases γ)
    (p : Phase) : (Phases.map3 f x y z).get p = f (x.get p) (y.get p) (z.get p) := by
  cases p <;> rfl

@[simp] theorem get_same {α : Type} (v : α) (p : Phase) : (Phases.same v).get p = v := by
  cases p <;> rfl

theorem get_phaseMask (p q : Phase) : (phaseMask p).get q = decide (q = p) := by
  by_cases h : q = p
  · subst h
    simp [phaseMask]
  · simp [phaseMask, get_set_other, h]

/-- RSQ's own change at the end of a release: outputs off, the cause kept, the state of R124. -/
def releaseEnded (s : State) : State :=
  { s with rsq := { s.rsq with
      bridge := false, bypassOpen := Phases.same false, waits := Phases.same none
      lastEndCause := s.rsq.endCause
      state := if s.pins.enable = false then .off
        else if s.settings.linkReady ≤ s.spt.lastGood.link then .ready else .charge } }

theorem closeBypasses_of_none (k : CompletionTaking) {m : Phases Bool} (h : ∀ p, m.get p = false) :
    closeBypasses k m s = s := by
  have left : s.rsq.bypassOpen.minus m = s.rsq.bypassOpen := phases_ext fun p => by simp [h]
  have waits : Phases.map2 (fun c w => if c then none else w) m s.rsq.waits = s.rsq.waits :=
    phases_ext fun p => by simp [h]
  rw [closeBypasses_eq, if_neg (by simp [left]), left, waits]

/-- The last open bypass closes: the event ends (R124). -/
theorem closeBypasses_of_last (k : CompletionTaking) {m : Phases Bool} (opened : ∃ p, s.rsq.bypassOpen.get p = true)
    (all : ∀ p, s.rsq.bypassOpen.get p = true → m.get p = true) :
    closeBypasses k m s = handEnd k (releaseEnded s) := by
  have shut : (s.rsq.bypassOpen.minus m).any = false := by
    rw [any_eq_false_iff]
    intro p
    cases h : s.rsq.bypassOpen.get p <;> simp [h, all p]
  rw [closeBypasses_eq, if_pos ⟨(any_iff _).mpr opened, shut⟩]
  rfl

/-- No open bypass is the last to close: bypasses and waits of the phases go, and nothing else changes (R123). -/
theorem closeBypasses_of_left (k : CompletionTaking) {m : Phases Bool}
    (h : (∀ p, s.rsq.bypassOpen.get p = false) ∨ ∃ p, s.rsq.bypassOpen.get p = true ∧ m.get p = false) :
    closeBypasses k m s =
      { s with rsq := { s.rsq with
          bypassOpen := s.rsq.bypassOpen.minus m
          waits := Phases.map2 (fun c w => if c then none else w) m s.rsq.waits } } := by
  rw [closeBypasses_eq, if_neg]
  rintro ⟨opened, left⟩
  rcases h with closed | ⟨p, hp, stays⟩
  · simp [(any_eq_false_iff _).mpr closed] at opened
  · have gone := (any_eq_false_iff _).mp left p
    simp [hp, stays] at gone

/-! CLOSE_WAIT_TIMEOUT (R123). -/

theorem timedOut_iff (w : Option Nat) : timedOut w = true ↔ ∃ n, w = some n ∧ 64 ≤ n := by
  cases w <;> simp [timedOut]

theorem closeTimedOut_of_release (k : CompletionTaking) (m : Phases Bool) (h : s.rsq.state = .release) :
    closeTimedOut k m s = closeBypasses k (m.meet (s.rsq.waits.map timedOut)) s := if_pos h

/-- A phase's wait that has run out closes that phase. -/
theorem phaseMask_meet_timedOut {p : Phase} (h : timedOut (s.rsq.waits.get p) = true) :
    (phaseMask p).meet (s.rsq.waits.map timedOut) = phaseMask p := by
  refine phases_ext fun q => ?_
  by_cases hq : q = p
  · subst hq
    simp [h]
  · simp [get_phaseMask, hq]

theorem minus_phaseMask (x : Phases Bool) (p : Phase) : x.minus (phaseMask p) = x.set p false := by
  refine phases_ext fun q => ?_
  by_cases hq : q = p
  · subst hq
    simp [get_phaseMask]
  · simp [get_phaseMask, get_set_other, hq]

theorem endWaits_phaseMask (x : Phases (Option Nat)) (p : Phase) :
    Phases.map2 (fun c w => if c then none else w) (phaseMask p) x = x.set p none := by
  refine phases_ext fun q => ?_
  by_cases hq : q = p
  · subst hq
    simp [get_phaseMask]
  · simp [get_phaseMask, get_set_other, hq]

theorem exec_closeWaitTimeout_of_left (k : CompletionTaking) {p : Phase} (hr : s.rsq.state = .release)
    (hw : timedOut (s.rsq.waits.get p) = true) (left : (s.rsq.bypassOpen.set p false).any = true) :
    exec (.closeWaitTimeout p k) s = .next
      { s with rsq := { s.rsq with
          bypassOpen := s.rsq.bypassOpen.set p false, waits := s.rsq.waits.set p none } } := by
  obtain ⟨q, hq⟩ := (any_iff _).mp left
  have other : q ≠ p := by
    rintro rfl
    simp at hq
  have stays : s.rsq.bypassOpen.get q = true ∧ (phaseMask p).get q = false := by
    rw [get_set_other _ _ other] at hq
    simp [hq, get_phaseMask, other]
  rw [exec_eq_effect]
  simp only [effect]
  rw [closeTimedOut_of_release k _ hr, phaseMask_meet_timedOut hw, closeBypasses_of_left k (.inr ⟨q, stays⟩),
    minus_phaseMask, endWaits_phaseMask]

theorem exec_closeWaitTimeout_of_last (k : CompletionTaking) {p : Phase} (hr : s.rsq.state = .release)
    (hw : timedOut (s.rsq.waits.get p) = true) (hp : s.rsq.bypassOpen.get p = true)
    (shut : (s.rsq.bypassOpen.set p false).any = false) :
    exec (.closeWaitTimeout p k) s = .next (handEnd k (releaseEnded s)) := by
  have all : ∀ q, s.rsq.bypassOpen.get q = true → (phaseMask p).get q = true := by
    intro q hq
    have gone := (any_eq_false_iff _).mp shut q
    by_cases h : q = p
    · simp [get_phaseMask, h]
    · simp [get_set_other _ _ h, hq] at gone
  rw [exec_eq_effect]
  simp only [effect]
  rw [closeTimedOut_of_release k _ hr, phaseMask_meet_timedOut hw, closeBypasses_of_last k ⟨p, hp⟩ all]

theorem exec_closeWaitTimeout_of_no_wait (k : CompletionTaking) {p : Phase}
    (h : s.rsq.state ≠ .release ∨ timedOut (s.rsq.waits.get p) = false) :
    exec (.closeWaitTimeout p k) s = .next s := by
  rw [exec_eq_effect]
  simp only [effect]
  by_cases hr : s.rsq.state = .release
  · have running : timedOut (s.rsq.waits.get p) = false := h.resolve_left (by simp [hr])
    rw [closeTimedOut_of_release k _ hr, closeBypasses_of_none k]
    intro q
    by_cases hq : q = p
    · subst hq
      simp [running]
    · simp [get_phaseMask, hq]
  · rw [closeTimedOut, if_neg hr]

/-! The close waits of an arrival (R122, R123). -/

theorem beginWaits_of_not (h : s.rsq.state ≠ .release ∨ s.rsq.rampDone = false) : beginWaits s = s := by
  unfold beginWaits
  rw [if_neg]
  rintro ⟨hr, hd⟩
  rcases h with h | h
  · exact h hr
  · simp [hd] at h

theorem beginWaits_waits (hr : s.rsq.state = .release) (hd : s.rsq.rampDone = true) (p : Phase) :
    (beginWaits s).rsq.waits.get p =
      if s.rsq.bypassOpen.get p = true ∧ s.rsq.waits.get p = none then some 0 else s.rsq.waits.get p := by
  rw [beginWaits, if_pos ⟨hr, hd⟩, get_map2]
  simp

theorem beginWaits_rsq (s : State) : (beginWaits s).rsq = { s.rsq with waits := (beginWaits s).rsq.waits } := by
  unfold beginWaits
  split <;> rfl

/-- The restorer once an arrival's set is noted, as the close waits begin on it. -/
def setNoted (n : Nat) (good : Option SampleSet) (s : State) : State :=
  let s1 : State := { s with spt := judge good s.spt, rsq := { s.rsq with onsetArrival := false } }
  let set := s1.spt.lastGood
  captureSet set (noteSet n set.v good.isNone (measureSet n set.v s1))

theorem takeSet_eq (n : Nat) (good : Option SampleSet) (s : State) :
    takeSet n good s = beginWaits (setNoted n good s) := rfl

theorem setNoted_rsq (n : Nat) (good : Option SampleSet) (s : State) :
    (setNoted n good s).rsq = { s.rsq with onsetArrival := false } := by
  simp [setNoted]

/-- A wait that counts an arrival is over at it (R123). -/
theorem waitOver_iff (apart : Bool) (before now : Int) (w : Option Nat) :
    waitOver apart before now (w.map (fun n => n + 1)) = true ↔
      ∃ n, w = some n ∧ (before * now ≤ 0 ∨ (apart = false ∧ 64 ≤ n + 1)) := by
  cases w <;> simp [waitOver]

/-- The state in which the waits have counted an arrival. -/
def waitsCounted (s : State) : State :=
  { s with rsq := { s.rsq with waits := s.rsq.waits.map (fun w => w.map (fun n => n + 1)) } }

/-- The phases whose waits are over at an arrival. -/
def closingAt (apart : Bool) (before : Phases Int) (s : State) : Phases Bool :=
  Phases.map3 (waitOver apart) before s.spt.lastGood.i (waitsCounted s).rsq.waits

theorem closingAt_iff (apart : Bool) (before : Phases Int) (s : State) (p : Phase) :
    (closingAt apart before s).get p = true ↔ ∃ n, s.rsq.waits.get p = some n ∧
      (before.get p * s.spt.lastGood.i.get p ≤ 0 ∨ (apart = false ∧ 64 ≤ n + 1)) := by
  rw [← waitOver_iff]
  simp [closingAt, waitsCounted]

theorem closeWaits_of_release (k : CompletionTaking) (apart : Bool) (before : Phases Int)
    (h : s.rsq.state = .release) :
    closeWaits k apart before s = closeBypasses k (closingAt apart before s) (waitsCounted s) := if_pos h

theorem closeWaits_of_not_release (k : CompletionTaking) (apart : Bool) (before : Phases Int)
    (h : s.rsq.state ≠ .release) : closeWaits k apart before s = s := if_neg h

end Sys2Proof.Machine
end

section
/-! ENABLE by the restorer's state (R110, R112, R121, R128, R130). -/

namespace Sys2Proof.Machine

/-- Settles O21: the assertion by what leaves OFF, the deassertion by the state. -/
theorem enableInputByState : Obligations.EnableInputByState := by
  unfold Obligations.EnableInputByState
  refine ⟨fun t s => ?asserted, fun t s => ⟨fun h => ?service, fun h => ?inject, fun h => ?rest⟩⟩
  case asserted =>
    rw [exec_eq_effect]
    simp only [effect, leaveOff_eq, and_true]
    rfl
  case service =>
    rw [exec_eq_effect]
    rcases h with h | h <;> simp only [effect, disable, moveTo_frame, h] <;> rfl
  case inject =>
    rw [exec_eq_effect]
    simp only [effect, disable, moveTo_frame, h]
    rw [exitInject_of_inject .disabled (by exact h)]
    rfl
  case rest =>
    rw [exec_eq_effect]
    rcases h with h | h | h <;> simp only [effect, disable, moveTo_frame, h] <;> rfl

end Sys2Proof.Machine
end

section
/-! The overcurrent run (R124, R126, R127). -/

namespace Sys2Proof.Machine

/-- Settles O26: the second set in a row over I_trip, the other sets, then the list of ends. -/
theorem overcurrentEndsEvent : Obligations.OvercurrentEndsEvent := by
  unfold Obligations.OvercurrentEndsEvent
  refine ⟨?ended, fun k s => ⟨fun he ho hr trip => ?_, fun he ho low => ?_, overcurrentTest_of_passed_over k⟩,
    fun c => ⟨rfl, rfl⟩, fun a b => ⟨rfl, rfl⟩, fun a b c => ⟨rfl, callsLockout_three a b c⟩, fun a b c d => rfl⟩
  case ended =>
    intro k s he ho hr trip u ends
    have hu : u = handEnd k (overcurrentEnded s) :=
      (overcurrentTest_of_later k he ho (by simp [hr]) ((overTrip_iff s).mpr trip)).trans (overcurrentEnd_eq k s)
    have rsq : u.rsq = (overcurrentEnded s).rsq := by simp [hu]
    have target : u.rsq.state = overcurrentTarget ends s := by rw [rsq]; rfl
    rw [target, rsq]
    refine ⟨hu, rfl, rfl, rfl, rfl, rfl, rfl, rfl, by rw [hu, handEnd_eq], by rw [hu, handEnd_eq],
      fun calls => if_pos calls, fun quiet off => ?_, fun quiet on ready => ?_, fun quiet on low => ?_⟩
    all_goals rw [overcurrentTarget, if_neg (by simp [quiet])]
    · exact releaseTarget_of_disabled off
    · rw [releaseTarget_of_enabled on, if_pos ready]
    · rw [releaseTarget_of_enabled on, if_neg (Nat.not_le.mpr low)]
  · exact overcurrentTest_of_first k he ho hr ((overTrip_iff s).mpr trip)
  · exact overcurrentTest_of_low k he ho ((overTrip_eq_false_iff s).mpr low)

end Sys2Proof.Machine
end

section
/-! The close waits and CLOSE_WAIT_TIMEOUT (R122, R123, R124). -/

namespace Sys2Proof.Machine

/-- Settles O27: the timeout of a phase, the waits that begin on a set, then the arrival that counts and closes. -/
theorem closeWaitTimeoutCloses : Obligations.CloseWaitTimeoutCloses := by
  unfold Obligations.CloseWaitTimeoutCloses
  refine ⟨?timeout, ?idle, ?begin, ?arrival, fun k apart before s h => closeWaits_of_not_release k apart before h⟩
  case timeout =>
    intro p k s n hr hw hn hp
    have out : timedOut (s.rsq.waits.get p) = true := (timedOut_iff _).mpr ⟨n, hw, hn⟩
    refine ⟨exec_closeWaitTimeout_of_left k hr out, fun last => ?_⟩
    have rsq : (handEnd k (releaseEnded s)).rsq = (releaseEnded s).rsq := by simp
    refine ⟨_, exec_closeWaitTimeout_of_last k hr out hp last, handEnd_eq k _, ?_⟩
    rw [rsq]
    rfl
  case idle =>
    intro p k s h
    refine exec_closeWaitTimeout_of_no_wait k (h.imp_right fun h => Bool.eq_false_iff.mpr fun out => ?_)
    obtain ⟨n, hw, hn⟩ := (timedOut_iff _).mp out
    rcases h with idle | ⟨m, running, low⟩
    · simp [hw] at idle
    · obtain rfl := Option.some.inj (hw.symm.trans running)
      omega
  case begin =>
    intro n good s waits
    have noted := setNoted_rsq n good s
    refine ⟨?_, fun h => ?_, fun hr hd p => ?_⟩
    · rw [takeSet_eq, beginWaits_rsq, noted]
      rfl
    · simp only [waits, takeSet_eq]
      rw [beginWaits_of_not (by simpa [noted] using h), noted]
    · simp only [waits, takeSet_eq]
      rw [beginWaits_waits (by simp [noted, hr]) (by simp [noted, hd]), noted]
  case arrival =>
    intro k apart before s hr closes u
    have closing : ∀ p, (closingAt apart before s).get p = true ↔ closes p := closingAt_iff apart before s
    have hu : u = closeBypasses k (closingAt apart before s) (waitsCounted s) :=
      closeWaits_of_release k apart before hr
    refine ⟨fun left => ?_, fun opened all => ?_⟩
    · have stays : (∀ p, (waitsCounted s).rsq.bypassOpen.get p = false) ∨
          ∃ p, (waitsCounted s).rsq.bypassOpen.get p = true ∧ (closingAt apart before s).get p = false :=
        left.imp_right fun ⟨p, hp, stays⟩ => ⟨p, hp, Bool.eq_false_iff.mpr (stays ∘ (closing p).mp)⟩
      rw [closeBypasses_of_left k stays] at hu
      rw [hu]
      refine ⟨rfl, fun p => ⟨fun h => ?_, fun h => ?_⟩⟩
      · simp [(closing p).mpr h]
      · have stands : (closingAt apart before s).get p = false := Bool.eq_false_iff.mpr (h ∘ (closing p).mp)
        simp [stands, waitsCounted]
    · exact hu.trans (closeBypasses_of_last k opened fun p hp => (closing p).mpr (all p hp))

end Sys2Proof.Machine
end

section
/-! SUPPORT. A restorer in service, ready or in an event: its lock, its place on the line and the load through the parts
of an arrival (R111, R112, R124, R174). -/

namespace Sys2Proof.Machine

/-- The restorer is ready or in an event (R111, R124). -/
def Serving (s : State) : Prop := s.rsq.state = .ready ∨ s.rsq.state = .inject ∨ s.rsq.state = .release

theorem serving_of_event {s : State} (h : eventActive s = true) : Serving s := .inr ((eventActive_iff s).mp h)

theorem not_off_of_serving {s : State} (h : Serving s) : s.rsq.state ≠ .off := by
  rcases h with h | h | h <;> simp [h]

/-- Out of service the restorer is in OFF, CHARGE or LOCKOUT (R109). -/
theorem not_serving_iff (s : State) :
    ¬ Serving s ↔ s.rsq.state = .off ∨ s.rsq.state = .charge ∨ s.rsq.state = .lockout := by
  unfold Serving
  cases s.rsq.state <;> decide

theorem no_event_of_not_serving {s : State} (h : ¬ Serving s) : eventActive s = false :=
  Bool.eq_false_iff.mpr (h ∘ serving_of_event)

namespace ReadinessHolds

variable {s u : State}

/-- Lock, place on the line and load stand; the restorer does not come into service, and OFF stays OFF. -/
theorem of_move (hs : ReadinessHolds s) (lock : u.pru.lock = s.pru.lock)
    (line : u.slc.membership = s.slc.membership) (cfl : u.cfl = s.cfl) (serving : Serving u → Serving s)
    (off : s.rsq.state = .off → u.rsq.state = .off) : ReadinessHolds u where
  loading h := by
    rw [cfl] at h ⊢
    obtain ⟨source, state⟩ := hs.loading h
    exact ⟨source, off state⟩
  lock h := lock ▸ hs.lock (serving h)
  line h := (onLine_congr line).trans (hs.line (serving h))

/-- A change of a restorer in service, into whatever state. -/
theorem of_serving (hs : ReadinessHolds s) (serving : Serving s) (lock : u.pru.lock = s.pru.lock)
    (line : u.slc.membership = s.slc.membership) (cfl : u.cfl = s.cfl) : ReadinessHolds u :=
  hs.of_move lock line cfl (fun _ => serving) (fun off => absurd off (not_off_of_serving serving))

/-- The restorer stays in its state. -/
theorem of_state (hs : ReadinessHolds s) (state : u.rsq.state = s.rsq.state) (lock : u.pru.lock = s.pru.lock)
    (line : u.slc.membership = s.slc.membership) (cfl : u.cfl = s.cfl) : ReadinessHolds u :=
  hs.of_move lock line cfl (by simp [Serving, state]) (fun off => state.trans off)

/-- The restorer goes out of service, its OFF and the load standing; lock and line may change. -/
theorem of_leaving (hs : ReadinessHolds s) (serving : ¬ Serving u) (cfl : u.cfl = s.cfl)
    (off : s.rsq.state = .off → u.rsq.state = .off) : ReadinessHolds u where
  loading h := by
    rw [cfl] at h ⊢
    obtain ⟨source, state⟩ := hs.loading h
    exact ⟨source, off state⟩
  lock h := absurd h serving
  line h := absurd h serving

/-- A restorer that is out of service with no load in flight. -/
theorem of_idle (serving : ¬ Serving s) (load : s.cfl.loading = false) : ReadinessHolds s where
  loading h := by simp [load] at h
  lock h := absurd h serving
  line h := absurd h serving

/-- RSQ, PRU, CFL and the place on the line stand; other blocks may change. -/
theorem of_blocks (hs : ReadinessHolds s) (rsq : u.rsq = s.rsq) (pru : u.pru = s.pru)
    (line : u.slc.membership = s.slc.membership) (cfl : u.cfl = s.cfl) : ReadinessHolds u :=
  hs.of_state (by rw [rsq]) (by rw [pru]) line cfl

end ReadinessHolds

variable (s : State)

/-! The lock through the parts of an arrival but the cycle end: an event's end writes PRU's notes alone (R17). -/

@[simp] theorem handEnd_lock (k : CompletionTaking) : (handEnd k s).pru.lock = s.pru.lock := by
  rw [handEnd_eq]

@[simp] theorem endEvent_lock (k : CompletionTaking) (c : EndCause) (t : RestorerState) :
    (endEvent k c t s).pru.lock = s.pru.lock := by
  simp [endEvent]

@[simp] theorem faultTaken_lock (k : CompletionTaking) (c : EndCause) :
    (faultTaken k c s).pru.lock = s.pru.lock := by
  unfold faultTaken
  (repeat' split) <;> simp

@[simp] theorem takeOnset_lock (k : CompletionTaking) : (takeOnset k s).pru.lock = s.pru.lock := by
  unfold takeOnset
  dsimp only
  split <;> simp

@[simp] theorem detect_lock (k : CompletionTaking) : (detect k s).pru.lock = s.pru.lock := by
  unfold detect
  (repeat' split) <;> simp

@[simp] theorem overcurrentTest_lock (k : CompletionTaking) : (overcurrentTest k s).pru.lock = s.pru.lock := by
  unfold overcurrentTest overcurrentEnd
  (repeat' split) <;> simp

@[simp] theorem closeBypasses_lock (k : CompletionTaking) (m : Phases Bool) :
    (closeBypasses k m s).pru.lock = s.pru.lock := by
  rw [closeBypasses_eq]
  split <;> simp

@[simp] theorem closeWaits_lock (k : CompletionTaking) (b : Bool) (x : Phases Int) :
    (closeWaits k b x s).pru.lock = s.pru.lock := by
  unfold closeWaits
  dsimp only
  split <;> simp

@[simp] theorem closeTimedOut_lock (k : CompletionTaking) (m : Phases Bool) :
    (closeTimedOut k m s).pru.lock = s.pru.lock := by
  unfold closeTimedOut
  split <;> simp

variable {s}

/-! Changes of the restorer (R82 to R86, R111, R112, R117, R128). -/

theorem exitInject_readiness (c : EndCause) (hs : ReadinessHolds s) : ReadinessHolds (exitInject c s) := by
  by_cases h : s.rsq.state = .inject
  · exact hs.of_serving (.inr (.inl h)) (by simp) (by simp) (by simp)
  · rwa [exitInject_of_not_inject c h]

theorem applyAction_readiness (b b' : Bool) (e : Option TableEntry) (hs : ReadinessHolds s) :
    ReadinessHolds (applyAction b b' e s) := by
  by_cases h : s.rsq.state = .inject
  · exact hs.of_serving (.inr (.inl h)) (by simp) (by simp) (by simp)
  · obtain ⟨rsq, -⟩ := applyAction_of_not_inject s b b' e h
    exact hs.of_blocks rsq (by simp) (by simp) (by simp)

theorem windowStep_readiness (b b' : Bool) (hs : ReadinessHolds s) : ReadinessHolds (windowStep b b' s) := by
  unfold windowStep
  dsimp only
  (repeat' split)
  · exact applyAction_readiness b b' _ (hs.of_blocks rfl rfl rfl rfl)
  · exact applyAction_readiness b b' _ (hs.of_blocks rfl rfl rfl rfl)
  · exact hs.of_blocks rfl rfl rfl rfl
  · exact hs

/-- READY is entered from CHARGE with the lock LOCKED and a place on the line (R111). -/
theorem readyTest_readiness (hs : ReadinessHolds s) : ReadinessHolds (readyTest s) := by
  unfold readyTest
  split
  · rename_i h
    obtain ⟨charge, -, locked, line⟩ := h
    refine ⟨fun load => ?_, fun _ => ?_, fun _ => line⟩
    · obtain ⟨-, off⟩ := hs.loading load
      exact absurd (charge.symm.trans off) (by decide)
    · simp [locked]
  · exact hs

theorem serviceTest_readiness (hs : ReadinessHolds s) : ReadinessHolds (serviceTest s) := by
  by_cases h : s.rsq.state = .ready
  · exact hs.of_serving (.inl h) (by simp) (by simp) (by simp)
  · rw [serviceTest, if_neg h]
    exact readyTest_readiness hs

/-- A change of lock taken outside an event: ACQUIRE leaves READY, and another lock allows it (R111, R112). -/
theorem lockHanded_readiness (hs : ReadinessHolds s) (idle : eventActive s = false) (p : Pru) :
    ReadinessHolds (lockHanded { s with pru := p }) := by
  by_cases acquire : p.lock = .acquire
  · rw [lockHanded_of_acquire acquire]
    refine hs.of_leaving ?_ rfl (fun off => ?_)
    · obtain ⟨inject, release⟩ := (eventActive_eq_false_iff s).mp idle
      by_cases ready : s.rsq.state = .ready <;> simp [Serving, ready, inject, release]
    · simp [off]
  · have kept : ReadinessHolds { s with pru := p } := ⟨hs.loading, fun _ => acquire, hs.line⟩
    rw [lockHanded, if_neg acquire]
    exact readyTest_readiness kept

theorem faultTaken_readiness (k : CompletionTaking) (c : EndCause) (hs : ReadinessHolds s) :
    ReadinessHolds (faultTaken k c s) := by
  by_cases serving : Serving s
  · exact hs.of_serving serving (by simp) (by simp) (by simp)
  · rcases (not_serving_iff s).mp serving with off | charge | lockout
    · rwa [faultTaken_of_out k c (.inl off)]
    · rw [faultTaken_of_service k c (.inl charge)]
      exact hs.of_leaving (by simp [Serving]) rfl (fun off => absurd (charge.symm.trans off) (by decide))
    · rwa [faultTaken_of_out k c (.inr lockout)]

/-! The cycle end and the timed steps (R12 to R14, R86, R123, R127). -/

theorem cycleEnd_readiness (b b' : Bool) (hs : ReadinessHolds s) : ReadinessHolds (cycleEnd b b' s) := by
  cases event : eventActive s with
  | true =>
    rw [cycleEnd_of_event b b' event]
    exact hs.of_serving (serving_of_event event) (by simp) (by simp) (by simp)
  | false =>
    have handed : ReadinessHolds (handLock s.pru.lock { s with pru := cycleEndPru b s }) := by
      unfold handLock
      split
      · rename_i same
        exact hs.of_state rfl same rfl rfl
      · exact lockHanded_readiness hs event _
    rw [cycleEnd_of_no_event b b' event]
    exact handed.of_state rfl rfl rfl rfl

theorem holdoverLimitReached_readiness (hs : ReadinessHolds s) : ReadinessHolds (holdoverLimitReached s) := by
  unfold holdoverLimitReached
  split
  · rename_i h
    obtain ⟨-, -, idle⟩ := h
    exact lockHanded_readiness hs idle _
  · exact hs

theorem closeTimedOut_readiness (k : CompletionTaking) (m : Phases Bool) (hs : ReadinessHolds s) :
    ReadinessHolds (closeTimedOut k m s) := by
  by_cases release : s.rsq.state = .release
  · exact hs.of_serving (.inr (.inr release)) (by simp) (by simp) (by simp)
  · rwa [closeTimedOut, if_neg release]

theorem expireDuration_readiness (hs : ReadinessHolds s) : ReadinessHolds (expireDuration s) := by
  unfold expireDuration
  split
  · exact exitInject_readiness _ (hs.of_blocks rfl rfl rfl rfl)
  · exact hs

theorem completeDue_readiness (hs : ReadinessHolds s) : ReadinessHolds (completeDue s) :=
  hs.of_blocks (by simp) (by simp) (by simp) (by simp)

theorem settleDue_readiness (hs : ReadinessHolds s) : ReadinessHolds (settleDue s) :=
  completeDue_readiness (expireDuration_readiness (closeTimedOut_readiness _ _ (holdoverLimitReached_readiness hs)))

/-! An arrival (R7, R132). -/

theorem takeSet_lock (n : Nat) (g : Option SampleSet) (s : State) : (takeSet n g s).pru.lock = s.pru.lock := by
  simp [takeSet, noteSet]

/-- The cycle end alone changes the lock (R12, R13). -/
theorem arrivalPart_lock (k : ArrivalTaking) (a : Arrival) {p : ArrivalPart} (h : p ≠ .cycleEnd) (s : State) :
    (arrivalPart k a p s).pru.lock = s.pru.lock := by
  cases p <;> simp only [arrivalPart]
  case cycleEnd => exact absurd rfl h
  all_goals (repeat' split) <;> simp

/-- Out of service an arrival's parts change the restorer by a fault, a change of lock and the service test alone. -/
theorem arrivalPart_readiness (k : ArrivalTaking) (a : Arrival) (p : ArrivalPart) (hs : ReadinessHolds s) :
    ReadinessHolds (arrivalPart k a p s) := by
  by_cases ending : p = .cycleEnd
  · subst ending
    simp only [arrivalPart]
    split
    · exact cycleEnd_readiness _ _ hs
    · exact hs
  by_cases serving : Serving s
  · exact hs.of_serving serving (arrivalPart_lock k a ending s) (by simp) (by simp)
  have idle := no_event_of_not_serving serving
  obtain ⟨inject, release⟩ := (eventActive_eq_false_iff s).mp idle
  cases p <;> simp only [arrivalPart]
  case sense =>
    split
    · exact faultTaken_readiness _ _ hs
    · exact hs
  case detect =>
    have noOnset : onsetHere s = false := Bool.eq_false_iff.mpr fun h => serving (.inl ((onsetHere_iff s).mp h).1)
    have noResag : resagHere s = false := Bool.eq_false_iff.mpr fun h => release ((resagHere_iff s).mp h).1
    rw [detect_of_neither _ noOnset noResag inject]
    exact hs.of_blocks (by simp) (by simp) (by simp) (by simp)
  case cycleEnd => exact absurd rfl ending
  case inject => rwa [injectSet_of_not_handled _ _ (by simp [handles, idle])]
  case service => exact serviceTest_readiness hs
  case linkRun => rwa [linkRunTest_of_passed_over (.inl inject)]
  case overcurrent => rwa [overcurrentTest_of_passed_over _ (.inl idle)]
  case closeWaits => rwa [closeWaits_of_not_release _ _ _ release]
  case completion =>
    split
    · exact hs
    · exact completeDue_readiness hs

end Sys2Proof.Machine
end

section
/-! SUPPORT. What each command makes of a restorer in service: the arrivals, the load, ENABLE and the fault inputs, the
line and the frame end, the requests and the resets (R57, R110 to R112, R124, R128, R131, R174, R178). -/

namespace Sys2Proof.Machine

variable {s : State}

/-! The resets and the load (R57, R110, R168, R174, R178). -/

/-- Every reset leaves the restorer in OFF, and starts its load from there (R134, R168, R176). -/
theorem readiness_of_reset {u : State} (off : u.rsq.state = .off)
    (load : u.cfl.loading = true → u.cfl.source = .loading) : ReadinessHolds u where
  loading h := ⟨load h, off⟩
  lock h := absurd off (not_off_of_serving h)
  line h := absurd off (not_off_of_serving h)

theorem initialState_readiness (s : State) : ReadinessHolds (initialState s) :=
  readiness_of_reset rfl (fun h => by cases h)

theorem carryOutReset_readiness (x : BitVec 4) (s : State) : ReadinessHolds (carryOutReset x s) := by
  rw [carryOutReset_eq]
  exact readiness_of_reset rfl (fun _ => rfl)

theorem moveTo_readiness (t : Nat) (hs : ReadinessHolds s) : ReadinessHolds (s.moveTo t) :=
  hs.of_blocks rfl rfl rfl rfl

/-- OFF is left for CHARGE or LOCKOUT, and with the settings in force: no load is in flight then (R110, R128). -/
theorem leaveOff_readiness (hs : ReadinessHolds s) : ReadinessHolds (leaveOff s) := by
  unfold leaveOff
  split
  · rename_i h
    obtain ⟨-, force, -⟩ := h
    refine .of_idle ?_ ?_
    · unfold enterCharge Serving
      dsimp only
      split <;> decide
    · refine Bool.eq_false_iff.mpr fun load => ?_
      obtain ⟨source, -⟩ := hs.loading load
      simp [inForce, source] at force
  · exact hs

theorem endLoad_readiness (r : LoadResult) (hs : ReadinessHolds s) : ReadinessHolds (endLoad r s) := by
  unfold endLoad
  split
  · rename_i load
    obtain ⟨-, off⟩ := hs.loading load
    refine leaveOff_readiness (.of_idle ?_ (by simp [cflInForce]))
    simp [Serving, off]
  · exact hs

/-! Arrivals and strobes. -/

theorem arrive_readiness (k : ArrivalTaking) (n : Nat) (g : Option SampleSet) (hs : ReadinessHolds s) :
    ReadinessHolds (arrive k n g s) :=
  arrive_induct s ReadinessHolds k n g
    ((settleDue_readiness hs).of_state (takeSet_state n g _) (takeSet_lock n g _) (by simp) (by simp))
    (fun a p _ hu => arrivalPart_readiness k a p hu) (fun x u _ _ _ => carryOutReset_readiness x u)

theorem deadlinePasses_readiness (k : ArrivalTaking) (hs : ReadinessHolds s) :
    ReadinessHolds (deadlinePasses k s) := by
  unfold deadlinePasses
  split
  · exact arrive_readiness k _ none (moveTo_readiness _ hs)
  · exact hs

theorem setArrives_readiness (t : Nat) (x : RawSet) (k : ArrivalTaking) (hs : ReadinessHolds s) :
    ReadinessHolds (setArrives t x k s) := by
  unfold setArrives
  split
  · split
    · exact moveTo_readiness t (deadlinePasses_readiness k hs)
    · exact arrive_readiness k _ _ (moveTo_readiness t hs)
  · exact moveTo_readiness t hs

/-- A strobe gives PRU a run and an index, and no lock (R8). -/
theorem strobeTime_lock (s : State) : (strobeTime s).pru.lock = s.pru.lock := by
  unfold strobeTime
  (repeat' split) <;> rfl

theorem strobeTime_readiness (hs : ReadinessHolds s) : ReadinessHolds (strobeTime s) :=
  hs.of_state (by simp) (strobeTime_lock s) (by simp) (by simp)

/-! ENABLE and the fault inputs (R112, R121, R128). -/

theorem disable_readiness (hs : ReadinessHolds s) : ReadinessHolds (disable s) := by
  unfold disable
  split
  case h_1 => exact hs.of_leaving (by simp [Serving]) rfl (fun _ => rfl)
  case h_2 => exact hs.of_leaving (by simp [Serving]) rfl (fun _ => rfl)
  case h_3 => exact exitInject_readiness _ hs
  case h_4 => exact hs

theorem assertFault_readiness (f : FaultInput) (k : CompletionTaking) (hs : ReadinessHolds s) :
    ReadinessHolds (assertFault f k s) := by
  unfold assertFault
  dsimp only
  split
  · exact hs.of_blocks rfl rfl rfl rfl
  · exact faultTaken_readiness k _ (hs.of_blocks rfl rfl rfl rfl)

/-! The line and the frame end (R41, R42, R44, R55, R111). -/

/-- RSQ, PRU and CFL stand, and a station on the line stays there. -/
theorem ReadinessHolds.of_line {u : State} (hs : ReadinessHolds s) (rsq : u.rsq = s.rsq) (pru : u.pru = s.pru)
    (cfl : u.cfl = s.cfl) (line : onLine s = true → onLine u = true) : ReadinessHolds u where
  loading h := by
    rw [cfl] at h ⊢
    rw [rsq]
    exact hs.loading h
  lock h := by
    rw [rsq] at h
    rw [pru]
    exact hs.lock h
  line h := by
    rw [rsq] at h
    exact line (hs.line h)

theorem blockBegins_membership (t : Nat) (p : Slc) : (blockBegins t p).membership = p.membership := by
  unfold blockBegins
  (repeat' split) <;> rfl

theorem takeBlock_membership (bytes : List Byte) (s : State) :
    (takeBlock bytes s).slc.membership = s.slc.membership := by
  unfold takeBlock sortBlock takeClaim
  dsimp only
  (repeat' split) <;> simp [countLineError]

theorem takeReadback_readiness (bytes : List Byte) (hs : ReadinessHolds s) :
    ReadinessHolds (takeReadback bytes s) := by
  unfold takeReadback
  split
  · exact hs.of_state rfl rfl rfl rfl
  · exact hs

theorem transmitAt_readiness (t : Nat) (hs : ReadinessHolds s) : ReadinessHolds (transmitAt t s) :=
  hs.of_blocks (by simp) (by simp) (by simp) (by simp)

theorem startAlone_readiness (hs : ReadinessHolds s) : ReadinessHolds (startAlone s) := by
  unfold startAlone
  split
  · rename_i t _ _
    have member : onLine (declared t s) = true := by
      obtain ⟨-, -, member, -⟩ := declareAlone_keeps t s.slc
      exact (onLine_iff _).mpr (.inl member)
    exact transmitAt_readiness t (readyTest_readiness (hs.of_line rfl rfl rfl fun _ => member))
  · exact hs

/-- The collision run and the first valid block leave a station on the line, or bring it there (R41, R44). -/
theorem slcSteps_onLine (t : Nat) (h : onLine s = true) : onLine (slcSteps t s) = true := by
  have collided : onLine (stepCollision (prepared s)) = true := by
    rw [stepCollision_onLine]
    exact (onLine_congr (by simp)).trans h
  rw [onLine_iff] at collided ⊢
  simp only [slcSteps, stepJoin_membership, stepAlign_fields]
  split
  · exact .inl rfl
  · exact collided

theorem frameEndSlc_readiness (t : Nat) (hs : ReadinessHolds s) : ReadinessHolds (frameEndSlc t s) := by
  obtain ⟨-, pru, rsq, cfl⟩ := slcSteps_frame t s
  have steps : ReadinessHolds (slcSteps t s) := hs.of_line rsq pru cfl (slcSteps_onLine t)
  rw [frameEndSlc_eq, handMembership]
  split
  · exact steps
  · exact readyTest_readiness steps

/-! Requests (R131, R132, R148). -/

theorem clearLockout_readiness (g : Nat) (tag : BitVec 4) (hs : ReadinessHolds s) :
    ReadinessHolds (clearLockout g tag s) := by
  unfold clearLockout
  split
  · rename_i lockout
    split
    · exact hs.of_blocks (by simp) (by simp) (by simp) (by simp)
    · refine hs.of_leaving ?_ (by simp) (fun off => absurd (lockout.symm.trans off) (by decide))
      simp only [Serving, answer_frame, leaveLockout]
      split <;> decide
  · exact hs.of_blocks (by simp) (by simp) (by simp) (by simp)

theorem testCapture_readiness (g : Nat) (tag : BitVec 4) (hs : ReadinessHolds s) :
    ReadinessHolds (testCapture g tag s) := by
  unfold testCapture
  split
  · exact hs.of_blocks (by simp) (by simp) (by simp) (by simp)
  · split
    · exact hs.of_blocks (by simp) (by simp) (by simp) (by simp)
    · exact hs.of_state (by simp) (by simp) (by simp) (by simp)

theorem softReset_readiness (g : Nat) (tag : BitVec 4) (hs : ReadinessHolds s) :
    ReadinessHolds (softReset g tag s) := by
  unfold softReset setQuiesce
  split <;> exact hs.of_state (by simp) (by simp) (by simp) (by simp)

theorem executeStanding_readiness (hs : ReadinessHolds s) : ReadinessHolds (executeStanding s) := by
  unfold executeStanding
  split
  · exact hs
  · dsimp only
    split
    case h_5 => exact clearLockout_readiness _ _ hs
    case h_6 => exact testCapture_readiness _ _ hs
    case h_7 => exact softReset_readiness _ _ hs
    all_goals exact hs.of_blocks (by simp) (by simp) (by simp) (by simp)

theorem framePart_readiness (k : FrameTaking) (t : Nat) (p : FramePart) (hs : ReadinessHolds s) :
    ReadinessHolds (framePart k t p s) := by
  cases p <;> simp only [framePart]
  case exhaust =>
    unfold exhaustTest
    split
    · exact exitInject_readiness _ hs
    · exact hs
  case classify => exact windowStep_readiness _ _ hs
  case execute => exact executeStanding_readiness hs
  all_goals exact hs.of_blocks (by simp) (by simp) (by simp) (by simp)

theorem frameEnd_readiness (k : FrameTaking) (t : Nat) (hs : ReadinessHolds s) : ReadinessHolds (frameEnd k t s) :=
  frameEnd_induct s ReadinessHolds k t (frameEndSlc_readiness t hs) (fun p _ hu => framePart_readiness k t p hu)

theorem slotStarts_readiness (k : FrameTaking) (hs : ReadinessHolds s) : ReadinessHolds (slotStarts k s) := by
  unfold slotStarts
  split
  · dsimp only
    split
    · exact frameEnd_readiness k _ (hs.of_blocks rfl rfl rfl rfl)
    · exact transmitAt_readiness _ (hs.of_blocks rfl rfl rfl rfl)
  · exact hs

/-! Every command. -/

theorem effect_readiness (c : Instr) (hs : ReadinessHolds s) : ReadinessHolds (effect c s) := by
  cases c <;> simp only [effect]
  case powerOn => exact initialState_readiness s
  case resetAsserted => exact initialState_readiness s
  case resetReleased t x =>
    split
    · exact readiness_of_reset rfl (fun _ => rfl)
    · exact moveTo_readiness t hs
  case memoryNoAnswer t => exact endLoad_readiness _ (moveTo_readiness t hs)
  case loadCompletion t image => exact endLoad_readiness _ (moveTo_readiness t hs)
  case enableAsserted => exact leaveOff_readiness (hs.of_blocks rfl rfl rfl rfl)
  case enableDeasserted => exact disable_readiness (hs.of_blocks rfl rfl rfl rfl)
  case faultInputActive t f k => exact assertFault_readiness f k (moveTo_readiness t hs)
  case strobe => exact strobeTime_readiness (deadlinePasses_readiness _ hs)
  case sampleSetArrival t x k => exact setArrives_readiness t x k hs
  case arrivalDeadline k => exact deadlinePasses_readiness k hs
  case holdoverLimit => exact holdoverLimitReached_readiness hs
  case closeWaitTimeout p k => exact closeTimedOut_readiness k _ hs
  case durationExpiry => exact expireDuration_readiness hs
  case blockStart t =>
    split
    · exact moveTo_readiness t hs
    · exact hs.of_blocks rfl rfl (blockBegins_membership _ _) rfl
  case blockReceived t own bytes =>
    split
    · exact takeReadback_readiness bytes (moveTo_readiness t hs)
    · exact hs.of_blocks (by simp) (by simp) (by simp [takeBlock_membership]) (by simp)
  case startAlone => exact startAlone_readiness hs
  case slotStart k => exact slotStarts_readiness k hs
  case clearLockout g tag =>
    split
    · exact clearLockout_readiness g tag hs
    · exact hs
  case testCapture g tag =>
    split
    · exact testCapture_readiness g tag hs
    · exact hs
  case softReset g tag =>
    split
    · exact softReset_readiness g tag hs
    · exact hs
  case softResetCarriedOut t x =>
    split
    · exact carryOutReset_readiness x _
    · exact moveTo_readiness t hs
  all_goals
    refine hs.of_blocks ?_ ?_ ?_ ?_ <;> (repeat' split) <;> simp

end Sys2Proof.Machine
end

section
/-! A restorer in service, through every step (R111, R112, R124). -/

namespace Sys2Proof.Machine

/-- Settles O30: every command keeps it, whatever the queue. -/
theorem readinessKept : Obligations.ReadinessKept := by
  unfold Obligations.ReadinessKept
  intro s u hs
  exact step_induct_effect ReadinessHolds (fun _ _ hs => hs.of_blocks rfl rfl rfl rfl)
    (fun c _ hs => effect_readiness c hs) hs

end Sys2Proof.Machine
end

section
/-! SUPPORT. A capture's opening as its bytes are read back: the sets at their positions, the summary area cleared, and
every other byte standing (R135 to R138, R151; log 23). -/

namespace Sys2Proof.Machine

theorem length_setBytes (x : CapturedSet) : (setBytes x).length = 12 := rfl

theorem setAddr_add (l : Layout) (slot q n : Nat) : setAddr l slot (q + n) = setAddr l slot q + 12 * n := by
  unfold setAddr
  omega

/-- The sets of every slot lie below the summary areas (R135; log 23). -/
theorem setAddr_le_summaryBase {l : Layout} {slot q : Nat} (h : slot < l.slots) (hq : q ≤ l.sets) :
    setAddr l slot q ≤ Config.summaryBase := by
  have area : l.slots * l.sets = 8192 := by cases l <;> rfl
  have room : slot * l.sets + l.sets ≤ l.slots * l.sets := by
    rw [← Nat.succ_mul]
    exact Nat.mul_le_mul_right _ h
  unfold setAddr Config.summaryBase
  omega

namespace Memory

/-- Sets written touch their positions alone. -/
theorem read_writeSets_outside (l : Layout) (slot q : Nat) (xs : List CapturedSet) (m : List Host.Cell) {a : Nat}
    (h : a < setAddr l slot q ∨ setAddr l slot (q + xs.length) ≤ a) :
    read (writeSets l slot q xs m) a = read m a := by
  induction xs generalizing m q with
  | nil => rfl
  | cons x xs ih =>
    simp only [List.length_cons, setAddr_add] at h
    unfold writeSets
    rw [ih, read_writeBytes_outside]
    · rw [length_setBytes]
      omega
    · simp only [setAddr_add]
      omega

/-- The bytes of a written set stand at its position. -/
theorem read_writeSets_inside {m : List Host.Cell} (hm : wf m = true) (l : Layout) (slot q : Nat)
    (xs : List CapturedSet) {j n : Nat} (hj : j < xs.length) (hn : n < 12) :
    read (writeSets l slot q xs m) (setAddr l slot (q + j) + n) =
      (setBytes xs[j])[n]'(by rw [length_setBytes]; exact hn) := by
  induction xs generalizing m q j with
  | nil => simp at hj
  | cons x xs ih =>
    unfold writeSets
    cases j with
    | zero =>
      rw [read_writeSets_outside]
      · exact read_writeBytes_inside hm _ _ (by rw [length_setBytes]; exact hn)
      · simp only [setAddr_add]
        omega
    | succ j =>
      have later := ih (wf_writeBytes hm (setAddr l slot q) (setBytes x)) (q + 1) (j := j) (by simpa using hj)
      rw [show q + 1 + j = q + (j + 1) by omega] at later
      exact later

/-- Four bytes of 0 are the word 0. -/
theorem readWord_of_zero {m : List Host.Cell} {a : Nat} (h : ∀ n, n < 4 → read m (a + n) = 0) :
    readWord m a = 0 := by
  have bytes : readBytes m a 4 = [0, 0, 0, 0] := by
    have first := h 0 (by decide)
    rw [Nat.add_zero] at first
    simp only [readBytes, Nat.add_assoc, first, h 1 (by decide), h 2 (by decide), h 3 (by decide)]
  rw [readWord, bytes]
  rfl

end Memory

section Opening

variable {l : Layout} {c : Cst} {making : Making} {tail : Option Nat} {delayed test : Bool}

/-- The history stands at the first positions of the slot (R138). -/
theorem read_openSlot_set (hm : Memory.wf c.mem = true) {j n : Nat} (hj : j < c.history.length) (hn : n < 12) :
    Memory.read (openSlot l making tail delayed test c).mem (setAddr l c.fill j + n) =
      (setBytes c.history[j]).getD n 0 := by
  have inside := Memory.read_writeSets_inside (Memory.wf_writeBytes hm (summaryAddr c.fill) (List.replicate 64 0)) l
    c.fill 0 c.history hj hn
  rw [Nat.zero_add] at inside
  rw [List.getD_eq_getElem _ _ (by rw [length_setBytes]; exact hn)]
  exact inside

/-- The summary area is cleared (R138). -/
theorem recordWord_openSlot (hm : Memory.wf c.mem = true) (hs : c.fill < l.slots) (hh : c.history.length ≤ l.sets)
    {w : Nat} (hw : w < 16) : recordWord (openSlot l making tail delayed test c) l c.fill w = 0 := by
  have below := setAddr_le_summaryBase hs hh
  rw [recordWord, if_pos hw]
  refine Memory.readWord_of_zero fun n hn => ?_
  have inArea : 4 * w + n < (List.replicate 64 (0 : Byte)).length := by
    rw [List.length_replicate]
    omega
  have cleared := Memory.read_writeBytes_inside hm (summaryAddr c.fill) _ inArea
  rw [List.getElem_replicate, ← Nat.add_assoc] at cleared
  simp only [openSlot]
  rw [Memory.read_writeSets_outside, cleared]
  right
  rw [Nat.zero_add]
  unfold summaryAddr
  omega

/-- An opening writes its record cycle and its summary area, and no other byte. -/
theorem read_openSlot_outside {a : Nat} (hset : a < setAddr l c.fill 0 ∨ setAddr l c.fill c.history.length ≤ a)
    (hsum : a < summaryAddr c.fill ∨ summaryAddr c.fill + 64 ≤ a) :
    Memory.read (openSlot l making tail delayed test c).mem a = Memory.read c.mem a := by
  simp only [openSlot]
  rw [Memory.read_writeSets_outside, Memory.read_writeBytes_outside]
  · rwa [List.length_replicate]
  · rwa [Nat.zero_add]

end Opening

/-- The fill pointer names a slot of the layout (R136). -/
theorem RingAgrees.fill_lt {s : State} {l : Layout} (h : RingAgrees s) (hl : s.cst.layout = some l) :
    s.cst.fill < l.slots := by
  obtain ⟨-, ring⟩ := h
  rw [hl] at ring
  obtain ⟨oldest, -, fill, -⟩ := ring
  rw [← fill]
  exact Nat.mod_lt _ (Nat.zero_lt_of_lt oldest)

end Sys2Proof.Machine
end

section
/-! SUPPORT. CLEAR_LOCKOUT, TEST_CAPTURE and SOFT_RESET as the standing request (R131, R132, R148, R150, R157, R158,
R163, R164; log 9). -/

namespace Sys2Proof.Machine

variable {s : State}

/-! The three commands: the execution when the request stands, nothing when it does not (log 9). -/

theorem exec_clearLockout (g : Nat) (tag : BitVec 4) (s : State) :
    exec (.clearLockout g tag) s = .next (if stands g tag 5 none s then clearLockout g tag s else s) := rfl

theorem exec_testCapture (g : Nat) (tag : BitVec 4) (s : State) :
    exec (.testCapture g tag) s = .next (if stands g tag 6 none s then testCapture g tag s else s) := rfl

theorem exec_softReset (g : Nat) (tag : BitVec 4) (s : State) :
    exec (.softReset g tag) s = .next (if stands g tag 7 none s then softReset g tag s else s) := rfl

/-- What every execution leaves of RQH: the reply, the slot's last executed tag, and the frame end's execution used
(R158). -/
theorem answer_rqh (g : Nat) (tag : BitVec 4) (status : Status) (data : Word) (s : State) :
    (answer g tag status data s).rqh =
      { reply := { requester := BitVec.ofNat 8 g, tag := tag, status := status, data := data }
        slots := s.rqh.slots.modify g (fun x => { x with lastTag := some tag })
        execOpen := false } := rfl

/-! CLEAR_LOCKOUT (R131, R163). -/

theorem clearLockout_of_clear (g : Nat) (tag : BitVec 4) (h : s.rsq.state = .lockout) (hf : faultActive s = false) :
    clearLockout g tag s = answer g tag .ok ((leaveLockout s).rsq.state.code.setWidth 32) (leaveLockout s) := by
  simp [clearLockout, h, hf]

theorem clearLockout_of_fault (g : Nat) (tag : BitVec 4) (h : s.rsq.state = .lockout) (hf : faultActive s = true) :
    clearLockout g tag s = answer g tag .refused (s.rsq.state.code.setWidth 32) s := by
  simp [clearLockout, h, hf]

theorem clearLockout_of_other (g : Nat) (tag : BitVec 4) (h : s.rsq.state ≠ .lockout) :
    clearLockout g tag s = answer g tag .ok (s.rsq.state.code.setWidth 32) s := by
  simp [clearLockout, h]

/-! SOFT_RESET (R132, R164). -/

theorem setQuiesce_of_set (h : s.rsq.quiesce = true) : setQuiesce s = s := by
  simp [setQuiesce, h]

theorem setQuiesce_of_clear (h : s.rsq.quiesce = false) :
    setQuiesce s = { s with rsq := { s.rsq with quiesce := true, sentSince := false } } := by
  simp [setQuiesce, h]

/-! TEST_CAPTURE (R115, R148, R150, R163). -/

/-- No event has the number 0 (R115). -/
theorem nextEvent_ne_zero (n : Word) : nextEvent n ≠ 0 := by
  unfold nextEvent
  split
  · decide
  · rename_i h
    have below : n ≠ 4294967295#32 := h
    bv_omega

theorem testCapture_of_refused (g : Nat) (tag : BitVec 4)
    (h : s.cst.layout = none ∨ eventActive s = true ∨ s.cst.filling.isSome = true) :
    testCapture g tag s = answer g tag .refused 0 s := by
  unfold testCapture
  split
  · rfl
  · rename_i l hl
    rw [if_pos]
    simpa [hl] using h

/-- The state in which a test has its number and its capture, before the reply. -/
def testTaken (l : Layout) (s : State) : State :=
  { s with
    rsq := { s.rsq with eventCounter := nextEvent s.rsq.eventCounter }
    cst := openTest l (nextEvent s.rsq.eventCounter) s }

theorem testCapture_of_taken (g : Nat) (tag : BitVec 4) {l : Layout} (hl : s.cst.layout = some l)
    (he : eventActive s = false) (hf : s.cst.filling = none) :
    testCapture g tag s = answer g tag .ok (nextEvent s.rsq.eventCounter) (testTaken l s) := by
  simp [testCapture, hl, he, hf, testTaken]

theorem openTest_of_full {l : Layout} (h : l.slots ≤ s.cst.full) (number : Word) :
    openTest l number s = { s.cst with missed := satInc s.cst.missed } := by
  simp [openTest, ringFull, h, missCapture]

/-- The record that a test makes: its number, and the onset fields as they stand (R150). -/
def testMaking (number : Word) (s : State) : Making where
  onset :=
    { event := number, frameNumber := s.slc.frameNumber, position := framePosition s, refAge := s.pru.ref.age }
  duration := 0
  ended := none
  classed := none

theorem openTest_of_room {l : Layout} (h : s.cst.full < l.slots) (number : Word) :
    openTest l number s = openSlot l (testMaking number s) none false true s.cst := by
  simp [openTest, ringFull, Nat.not_le.mpr h, testMaking, onsetFields]

end Sys2Proof.Machine
end

section
/-! CLEAR_LOCKOUT (R131, R157, R158, R163; log 9). -/

namespace Sys2Proof.Machine

/-- Settles O57: the restorer's state and the fault inputs decide, and one answer writes RQH in each case. -/
theorem clearLockoutByState : Obligations.ClearLockoutByState := by
  unfold Obligations.ClearLockoutByState
  refine ⟨fun g tag s h => ⟨clearLockout g tag s, ?_, ?_⟩, fun g tag s h => ?_, rfl⟩
  · rw [exec_clearLockout, if_pos h]
  · by_cases lockout : s.rsq.state = .lockout
    · cases fault : faultActive s with
      | false =>
        rw [clearLockout_of_clear g tag lockout fault]
        exact ⟨rfl, rfl, rfl, rfl, rfl, fun _ _ => ⟨rfl, rfl⟩, fun _ h => absurd h (by decide),
          fun h => absurd lockout h⟩
      | true =>
        rw [clearLockout_of_fault g tag lockout fault]
        exact ⟨rfl, rfl, rfl, rfl, rfl, fun _ h => absurd h (by decide), fun _ _ => ⟨rfl, rfl⟩,
          fun h => absurd lockout h⟩
    · rw [clearLockout_of_other g tag lockout]
      exact ⟨rfl, rfl, rfl, rfl, rfl, fun h => absurd h lockout, fun h => absurd h lockout, fun _ => ⟨rfl, rfl⟩⟩
  · rw [exec_clearLockout, if_neg (Bool.eq_false_iff.mp h)]

end Sys2Proof.Machine
end

section
/-! TEST_CAPTURE (R115, R138, R148, R150, R157, R158, R163; log 9, 23). -/

namespace Sys2Proof.Machine

/-- Settles O58: refused, or taken with a number; then missed or opened, with the bytes of the opening. -/
theorem testCaptureByState : Obligations.TestCaptureByState := by
  unfold Obligations.TestCaptureByState
  refine ⟨fun g tag s h => ⟨testCapture g tag s, ?_, ?_⟩, fun g tag s h => ?_⟩
  · rw [exec_testCapture, if_pos h]
  · by_cases refused : s.cst.layout = none ∨ eventActive s = true ∨ s.cst.filling.isSome = true
    · rw [testCapture_of_refused g tag refused]
      refine ⟨rfl, rfl, rfl, rfl, fun _ => ⟨rfl, rfl, rfl, rfl⟩, fun l hl he hf => ?_⟩
      simp [hl, he, hf] at refused
    · obtain ⟨l, hl⟩ : ∃ l, s.cst.layout = some l := Option.ne_none_iff_exists'.mp fun h => refused (.inl h)
      have he : eventActive s = false := Bool.eq_false_iff.mpr fun h => refused (.inr (.inl h))
      have hf : s.cst.filling = none := by
        rw [← Option.not_isSome_iff_eq_none]
        exact fun h => refused (.inr (.inr h))
      rw [testCapture_of_taken g tag hl he hf]
      refine ⟨rfl, rfl, rfl, rfl, fun h => absurd h refused, fun l' hl' _ _ => ?_⟩
      obtain rfl : l = l' := Option.some.inj (hl.symm.trans hl')
      refine ⟨rfl, rfl, rfl, nextEvent_ne_zero _, fun full => openTest_of_full full _, fun room => ?_⟩
      have opened := openTest_of_room room (nextEvent s.rsq.eventCounter)
      simp only [answer_frame, testTaken, opened]
      refine ⟨rfl, fun canonical ring => ?_⟩
      have length : s.cst.history.length = 128 := ring.1
      have sets : s.cst.history.length ≤ l.sets := by
        rw [length]
        cases l <;> decide
      refine ⟨fun q n => ?_, fun w => recordWord_openSlot canonical (ring.fill_lt hl) sets w.isLt,
        fun a hset hsum => ?_⟩
      · have hq : q.val < s.cst.history.length := by
          rw [length]
          exact q.isLt
        rw [read_openSlot_set canonical hq n.isLt, List.getD_eq_getElem _ _ hq]
      · exact read_openSlot_outside (by rwa [length]) hsum
  · rw [exec_testCapture, if_neg (Bool.eq_false_iff.mp h)]

end Sys2Proof.Machine
end

section
/-! SOFT_RESET (R132, R157, R158, R164; log 9). -/

namespace Sys2Proof.Machine

/-- Settles O59: the flag is set before the answer, which leaves RSQ. -/
theorem softResetSetsQuiesce : Obligations.SoftResetSetsQuiesce := by
  unfold Obligations.SoftResetSetsQuiesce
  refine ⟨fun g tag s h => ⟨softReset g tag s, ?_, ?_, ?_, fun set => ?_, fun clear => ?_⟩, fun g tag s h => ?_⟩
  · rw [exec_softReset, if_pos h]
  · apply state_ext <;> simp
  · simp [softReset, answer_rqh]
  · simp [softReset, setQuiesce_of_set set]
  · simp [softReset, setQuiesce_of_clear clear]
  · rw [exec_softReset, if_neg (Bool.eq_false_iff.mp h)]

end Sys2Proof.Machine
end

section
/-! SUPPORT. What CST's operations keep of the store, the work on an arrival keeps: an event's end, an onset, the
restorer's ends and a set reach the store by those operations and by no other work (R137 to R146). -/

namespace Sys2Proof.Machine

/-- A property of the store that each of CST's operations keeps. -/
structure StoreInvariant (P : Cst → Prop) : Prop where
  initial : P Cst.initial
  set : ∀ x s, P s.cst → P (captureSet x s).cst
  onset : ∀ s, P s.cst → P (captureOnset s).cst
  classFields : ∀ s, P s.cst → P (takeClassFields s).cst
  ended : ∀ s, P s.cst → P (captureEnded s).cst
  released : ∀ s, P s.cst → P (releaseCapture s).cst
  completed : ∀ s, P s.cst → P (complete s).cst
  softReset : ∀ s, P s.cst → P (captureSoftReset s)
  test : ∀ l n s, s.cst.layout = some l → P s.cst → P (openTest l n s)
  freed : ∀ n c, P c → P (freeSlots n c)
  layoutFixed : ∀ r c, P c → P { c with layout := some (layoutAfter c.layout r) }

/-- CST's part of the work before an arrival's parts: the set taken on the judgement (R137; log 6). -/
theorem takeSet_cst (n : Nat) (g : Option SampleSet) (s : State) :
    (takeSet n g s).cst = (captureSet (judge g s.spt).lastGood s).cst := by
  unfold takeSet
  simp only [beginWaits_frame]
  rfl

variable {P : Cst → Prop} {s : State}

/-! An event's end, and an onset (R138, R142 to R144, R146). -/

theorem completeDue_store (h : StoreInvariant P) (hs : P s.cst) : P (completeDue s).cst :=
  completeDue_induct (fun u => P u.cst) hs (fun u hu _ => h.completed u hu)

theorem releaseIf_store (h : StoreInvariant P) (no : Bool) (hs : P s.cst) : P (releaseIf no s).cst := by
  cases no with
  | false => exact hs
  | true => exact h.released s hs

theorem handEnd_store (h : StoreInvariant P) (k : CompletionTaking) (hs : P s.cst) : P (handEnd k s).cst := by
  have classified : P (classifyAtEnd (captureEnded (quietBlocks s))).cst := by
    rw [classifiedAtEnd_cst]
    exact h.ended s hs
  unfold handEnd
  cases k with
  | afterNo => exact completeDue_store h (releaseIf_store h _ classified)
  | beforeNo => exact releaseIf_store h _ (completeDue_store h classified)
  | apart => exact releaseIf_store h _ classified

theorem faultTaken_store (h : StoreInvariant P) (k : CompletionTaking) (c : EndCause) (hs : P s.cst) :
    P (faultTaken k c s).cst := by
  unfold faultTaken
  split
  · exact handEnd_store h k hs
  · split <;> exact hs

theorem applyAction_store (h : StoreInvariant P) (b b' : Bool) (e : Option TableEntry) (hs : P s.cst) :
    P (applyAction b b' e s).cst := by
  rw [applyAction_cst]
  split
  · exact hs
  · exact h.released s hs

theorem takeOnset_store (h : StoreInvariant P) (k : CompletionTaking) (hs : P s.cst) : P (takeOnset k s).cst := by
  have opened : ∀ u, u.cst = (takeClassFields s).cst → P (captureOnset u).cst :=
    fun u hu => h.onset u (hu ▸ h.classFields s hs)
  unfold takeOnset openWindow
  dsimp only
  split
  · split
    · exact applyAction_store h _ _ _ (opened _ (by simp))
    · exact opened _ (by simp)
  · exact handEnd_store h k (opened _ (by simp))

theorem detect_store (h : StoreInvariant P) (k : CompletionTaking) (hs : P s.cst) : P (detect k s).cst := by
  unfold detect
  split
  · exact takeOnset_store h k hs
  · split <;> simpa using hs

/-! The restorer's ends (R123, R124, R126). -/

theorem overcurrentTest_store (h : StoreInvariant P) (k : CompletionTaking) (hs : P s.cst) :
    P (overcurrentTest k s).cst := by
  unfold overcurrentTest
  split
  · split
    · split
      · exact hs
      · exact handEnd_store h k hs
    · exact hs
  · exact hs

theorem closeBypasses_store (h : StoreInvariant P) (k : CompletionTaking) (m : Phases Bool) (hs : P s.cst) :
    P (closeBypasses k m s).cst := by
  rw [closeBypasses_eq]
  split
  · exact handEnd_store h k hs
  · exact hs

theorem closeWaits_store (h : StoreInvariant P) (k : CompletionTaking) (b : Bool) (x : Phases Int) (hs : P s.cst) :
    P (closeWaits k b x s).cst := by
  unfold closeWaits
  split
  · exact closeBypasses_store h k _ hs
  · exact hs

theorem closeTimedOut_store (h : StoreInvariant P) (k : CompletionTaking) (m : Phases Bool) (hs : P s.cst) :
    P (closeTimedOut k m s).cst := by
  unfold closeTimedOut
  split
  · exact closeBypasses_store h k _ hs
  · exact hs

/-! An arrival (R137, R142, R153). -/

theorem settleDue_store (h : StoreInvariant P) (hs : P s.cst) : P (settleDue s).cst := by
  have settled : P (closeTimedOut .afterNo (Phases.same true) (holdoverLimitReached s)).cst :=
    closeTimedOut_store h _ _ (by simpa using hs)
  exact completeDue_store h (by simpa using settled)

theorem arrivalPart_store (h : StoreInvariant P) (k : ArrivalTaking) (a : Arrival) (p : ArrivalPart) (hs : P s.cst) :
    P (arrivalPart k a p s).cst := by
  cases p <;> simp only [arrivalPart]
  case sense =>
    split
    · exact faultTaken_store h _ _ hs
    · exact hs
  case detect => exact detect_store h _ hs
  case cycleEnd => split <;> simpa using hs
  case overcurrent => exact overcurrentTest_store h _ hs
  case closeWaits => exact closeWaits_store h _ _ _ hs
  case completion =>
    split
    · exact hs
    · exact completeDue_store h hs
  all_goals simpa using hs

theorem carryOutReset_store (h : StoreInvariant P) (x : BitVec 4) (hs : P s.cst) : P (carryOutReset x s).cst := by
  rw [carryOutReset_eq]
  exact h.softReset s hs

theorem arrive_store (h : StoreInvariant P) (k : ArrivalTaking) (n : Nat) (g : Option SampleSet) (hs : P s.cst) :
    P (arrive k n g s).cst := by
  refine arrive_induct s (fun u => P u.cst) k n g ?_ (fun a p _ hu => arrivalPart_store h k a p hu)
    (fun x _ _ _ hu => carryOutReset_store h x hu)
  rw [takeSet_cst]
  exact h.set _ _ (settleDue_store h hs)

theorem deadlinePasses_store (h : StoreInvariant P) (k : ArrivalTaking) (hs : P s.cst) :
    P (deadlinePasses k s).cst := by
  unfold deadlinePasses
  split
  · exact arrive_store h k _ none hs
  · exact hs

theorem setArrives_store (h : StoreInvariant P) (t : Nat) (x : RawSet) (k : ArrivalTaking) (hs : P s.cst) :
    P (setArrives t x k s).cst := by
  unfold setArrives
  split
  · split
    · exact deadlinePasses_store h k hs
    · exact arrive_store h k _ _ hs
  · exact hs

end Sys2Proof.Machine
end

section
/-! SUPPORT. What CST's operations keep of the store, every command and every step keeps (R135, R147, R148, R153). -/

namespace Sys2Proof.Machine

variable {P : Cst → Prop} {s : State}

/-! The load, and the requests (R135, R147, R148). -/

theorem endLoad_store (h : StoreInvariant P) (r : LoadResult) (hs : P s.cst) : P (endLoad r s).cst := by
  unfold endLoad
  split
  · simpa [comeIntoForce] using h.layoutFixed r.settings s.cst hs
  · exact hs

theorem freeRecords_store (h : StoreInvariant P) (g : Nat) (tag : BitVec 4) (n : Word) (hs : P s.cst) :
    P (freeRecords g tag n s).cst := by
  unfold freeRecords
  split
  · exact hs
  · split <;> exact h.freed _ _ hs

theorem testCapture_store (h : StoreInvariant P) (g : Nat) (tag : BitVec 4) (hs : P s.cst) :
    P (testCapture g tag s).cst := by
  unfold testCapture
  split
  · exact hs
  · rename_i l hl
    split
    · exact hs
    · exact h.test l _ s hl hs

theorem executeStanding_store (h : StoreInvariant P) (hs : P s.cst) : P (executeStanding s).cst := by
  unfold executeStanding
  split
  · exact hs
  · dsimp only
    split
    case h_4 => exact freeRecords_store h _ _ _ hs
    case h_6 => exact testCapture_store h _ _ hs
    all_goals simpa using hs

/-! The frame end (R76, R157). -/

theorem windowStep_store (h : StoreInvariant P) (b b' : Bool) (hs : P s.cst) : P (windowStep b b' s).cst := by
  unfold windowStep
  dsimp only
  (repeat' split)
  · exact applyAction_store h b b' _ hs
  · exact applyAction_store h b b' _ hs
  · exact hs
  · exact hs

theorem framePart_store (h : StoreInvariant P) (k : FrameTaking) (t : Nat) (p : FramePart) (hs : P s.cst) :
    P (framePart k t p s).cst := by
  cases p <;> simp only [framePart]
  case classify => exact windowStep_store h _ _ hs
  case execute => exact executeStanding_store h hs
  all_goals simpa using hs

theorem slotStarts_store (h : StoreInvariant P) (k : FrameTaking) (hs : P s.cst) : P (slotStarts k s).cst := by
  unfold slotStarts
  split
  · dsimp only
    split
    · exact frameEnd_induct _ (fun u => P u.cst) k _ (by simpa using hs) (fun p _ hu => framePart_store h k _ p hu)
    · simpa using hs
  · exact hs

/-! Every command, and every step. -/

theorem effect_store (h : StoreInvariant P) (c : Instr) (hs : P s.cst) : P (effect c s).cst := by
  cases c <;> simp only [effect]
  case powerOn => exact h.initial
  case resetAsserted => exact h.initial
  case resetReleased t x =>
    split
    · exact h.initial
    · exact hs
  case memoryNoAnswer t => exact endLoad_store h _ hs
  case loadCompletion t image => exact endLoad_store h _ hs
  case faultInputActive t f k =>
    unfold assertFault
    dsimp only
    split
    · exact hs
    · exact faultTaken_store h k _ hs
  case strobe => simpa using deadlinePasses_store h {} hs
  case sampleSetArrival t x k => exact setArrives_store h t x k hs
  case arrivalDeadline k => exact deadlinePasses_store h k hs
  case closeWaitTimeout p k => exact closeTimedOut_store h k _ hs
  case captureCompletion => exact completeDue_store h hs
  case slotStart k => exact slotStarts_store h k hs
  case freeRecords g tag n =>
    split
    · exact freeRecords_store h g tag n hs
    · exact hs
  case testCapture g tag =>
    split
    · exact testCapture_store h g tag hs
    · exact hs
  case softResetCarriedOut t x =>
    split
    · exact carryOutReset_store h x hs
    · exact hs
  all_goals (repeat' split) <;> simpa using hs

/-- What CST's operations keep, a step keeps. -/
theorem StoreInvariant.step (h : StoreInvariant P) {u : State} (hs : P s.cst) (hu : step s = .next u) : P u.cst :=
  step_induct_effect (fun v => P v.cst) (fun _ _ hv => hv) (fun c _ hv => effect_store h c hv) hs hu

end Sys2Proof.Machine
end

section
/-! SUPPORT. The agreement of the ring as a property of the store, kept by each of CST's operations (R136, R137, R143,
R147, R152, R153). -/

namespace Sys2Proof.Machine

/-- The ring agrees, said of the store alone. -/
def RingSound (c : Cst) : Prop := RingAgrees { State.reset with cst := c }

theorem ringAgrees_iff (s : State) : RingAgrees s ↔ RingSound s.cst := Iff.rfl

variable {c d : Cst} {l : Layout}

theorem ringSound_of_layout (h : c.layout = some l) : RingSound c ↔ c.history.length = 128 ∧ c.oldest < l.slots ∧
    c.full ≤ l.slots ∧ (c.oldest + c.full) % l.slots = c.fill ∧ (c.filling.isSome = true → c.full < l.slots) := by
  simp [RingSound, RingAgrees, h]

theorem ringSound_of_no_layout (h : c.layout = none) : RingSound c ↔ c.history.length = 128 ∧ c.oldest = 0 ∧
    c.fill = 0 ∧ c.full = 0 ∧ c.filling = none := by
  simp [RingSound, RingAgrees, h]

theorem RingSound.length_history (hc : RingSound c) : c.history.length = 128 := And.left hc

/-- The slot that a capture fills is not FULL: there is a layout, and room in the ring (R136). -/
theorem RingSound.room_of_filling (hc : RingSound c) (h : c.filling.isSome = true) :
    ∃ l, c.layout = some l ∧ c.full < l.slots := by
  cases hl : c.layout with
  | none =>
    obtain ⟨-, -, -, -, filling⟩ := (ringSound_of_no_layout hl).mp hc
    simp [filling] at h
  | some l =>
    obtain ⟨-, -, -, -, room⟩ := (ringSound_of_layout hl).mp hc
    exact ⟨l, rfl, room h⟩

/-- Layout, pointers and FULL count stand, and a capture is in fill only where there is room for one. -/
theorem RingSound.of_pointers (hc : RingSound c) (history : d.history.length = c.history.length)
    (layout : d.layout = c.layout) (oldest : d.oldest = c.oldest) (fill : d.fill = c.fill) (full : d.full = c.full)
    (room : d.filling.isSome = true → ∃ l, c.layout = some l ∧ c.full < l.slots) : RingSound d := by
  cases hl : c.layout with
  | none =>
    obtain ⟨length, ho, hp, hf, -⟩ := (ringSound_of_no_layout hl).mp hc
    have idle : d.filling = none := by simpa [hl] using room
    exact (ringSound_of_no_layout (layout.trans hl)).mpr
      ⟨history.trans length, oldest.trans ho, fill.trans hp, full.trans hf, idle⟩
  | some l =>
    obtain ⟨length, ho, hf, hp, -⟩ := (ringSound_of_layout hl).mp hc
    refine (ringSound_of_layout (layout.trans hl)).mpr ⟨history.trans length, ?_, ?_, ?_, fun h => ?_⟩
    · rwa [oldest]
    · rwa [full]
    · rwa [oldest, full, fill]
    · obtain ⟨l', hl', lt⟩ := room h
      obtain rfl : l = l' := Option.some.inj (hl.symm.trans hl')
      rwa [full]

/-- The same, where a capture is in fill only if one was. -/
theorem RingSound.of_filling (hc : RingSound c) (history : d.history.length = c.history.length)
    (layout : d.layout = c.layout) (oldest : d.oldest = c.oldest) (fill : d.fill = c.fill) (full : d.full = c.full)
    (filling : d.filling.isSome = true → c.filling.isSome = true) : RingSound d :=
  hc.of_pointers history layout oldest fill full (fun h => hc.room_of_filling (filling h))

/-! Opening and filing (R138, R143). -/

theorem openSlot_ring (hc : RingSound c) (hl : c.layout = some l) (room : c.full < l.slots) (m : Making)
    (tail : Option Nat) (delayed test : Bool) : RingSound (openSlot l m tail delayed test c) :=
  hc.of_pointers rfl rfl rfl rfl rfl (fun _ => ⟨l, hl, room⟩)

theorem missCapture_ring (hc : RingSound c) : RingSound (missCapture c) :=
  hc.of_filling rfl rfl rfl rfl rfl id

/-- The slot filed is the one behind the FULL ones, so count and fill pointer advance together (R136, R143). -/
theorem fileRecord_ring (hc : RingSound c) (hl : c.layout = some l) (room : c.full < l.slots) (m : Summary) :
    RingSound (fileRecord l m c) := by
  obtain ⟨length, oldest, -, fill, -⟩ := (ringSound_of_layout hl).mp hc
  have filed := fileRecord_fields l m c
  refine (ringSound_of_layout (by simpa using hl)).mpr ⟨by simpa using length, by simpa using oldest,
    by simpa using room, ?_, by simp⟩
  simp only [filed]
  rw [← fill, Nat.mod_add_mod, Nat.add_assoc]

theorem openQueued_ring (hc : RingSound c) (hl : c.layout = some l) (q : Queued) : RingSound (openQueued l q c) := by
  unfold openQueued
  split
  · exact missCapture_ring hc
  · rename_i h
    exact openSlot_ring hc hl (by simpa [ringFull] using h) _ _ _ _

/-! The operations on the state. -/

variable {s : State}

theorem captureSet_ring (x : SampleSet) (hs : RingSound s.cst) : RingSound (captureSet x s).cst := by
  have long : (s.cst.history.drop 1 ++ [(⟨x.v, x.i⟩ : CapturedSet)]).length = s.cst.history.length := by
    simp [hs.length_history]
  unfold captureSet
  dsimp only
  split
  · rename_i f _ hf
    exact hs.of_filling long rfl rfl rfl rfl (fun _ => by simp [hf])
  · exact hs.of_filling long rfl rfl rfl rfl id

theorem captureOnset_ring (hs : RingSound s.cst) : RingSound (captureOnset s).cst := by
  unfold captureOnset
  dsimp only
  split
  · exact missCapture_ring hs
  · rename_i l hl _
    split
    · exact missCapture_ring hs
    · rename_i h
      exact openSlot_ring hs hl (by simpa [ringFull] using h) _ _ _ _
  · rename_i l c hl hf
    obtain ⟨l', hl', room⟩ := hs.room_of_filling (by simp [hf])
    obtain rfl : l = l' := Option.some.inj (hl.symm.trans hl')
    split
    · exact openSlot_ring hs hl room _ _ _ _
    · split
      · exact hs.of_filling rfl rfl rfl rfl rfl id
      · exact missCapture_ring hs

theorem complete_ring (hs : RingSound s.cst) : RingSound (complete s).cst := by
  unfold complete
  split
  · rename_i l c hl hf
    obtain ⟨l', hl', room⟩ := hs.room_of_filling (by simp [hf])
    obtain rfl : l = l' := Option.some.inj (hl.symm.trans hl')
    have filed := fun m => fileRecord_ring hs hl room m
    dsimp only
    split
    · exact openQueued_ring (filed _) (by simpa using hl) _
    · exact filed _
  · exact hs

theorem captureSoftReset_ring (hs : RingSound s.cst) : RingSound (captureSoftReset s) := by
  have cleared : ∀ c : Cst, RingSound c → RingSound { c with queued := none, history := zeroHistory } := by
    intro c hc
    exact hc.of_filling (by simp [zeroHistory, hc.length_history]) rfl rfl rfl rfl id
  unfold captureSoftReset
  split
  · rename_i l f hl hf
    obtain ⟨l', hl', room⟩ := hs.room_of_filling (by simp [hf])
    obtain rfl : l = l' := Option.some.inj (hl.symm.trans hl')
    exact cleared _ (fileRecord_ring hs hl room _)
  · exact cleared _ hs

/-- The slots freed leave the FULL ones at their oldest end, so the fill pointer stands (R147). -/
theorem freeSlots_ring (n : Nat) (hc : RingSound c) : RingSound (freeSlots n c) := by
  cases hl : c.layout with
  | none =>
    obtain ⟨length, oldest, fill, full, filling⟩ := (ringSound_of_no_layout hl).mp hc
    exact (ringSound_of_no_layout (c := freeSlots n c) hl).mpr
      ⟨length, by simp [freeSlots, advance, hl, oldest], fill, by simp [freeSlots, full], filling⟩
  | some l =>
    obtain ⟨length, oldest, full, fill, room⟩ := (ringSound_of_layout hl).mp hc
    have slots : 0 < l.slots := Nat.zero_lt_of_lt oldest
    have fewer : c.full - min n c.full ≤ c.full := Nat.sub_le _ _
    refine (ringSound_of_layout (c := freeSlots n c) hl).mpr ⟨length, ?_, fewer.trans full, ?_,
      fun h => Nat.lt_of_le_of_lt fewer (room h)⟩
    · simpa [freeSlots, advance, hl] using Nat.mod_lt _ slots
    · have whole : c.oldest + min n c.full + (c.full - min n c.full) = c.oldest + c.full := by omega
      simp only [freeSlots, advance, hl]
      rw [Nat.mod_add_mod, whole, fill]

/-- The first layout meets an empty store, and a later one stands (R135, R152). -/
theorem layoutAfter_ring (r : Config.Settings) (hc : RingSound c) :
    RingSound { c with layout := some (layoutAfter c.layout r) } := by
  cases hl : c.layout with
  | none =>
    obtain ⟨length, oldest, fill, full, filling⟩ := (ringSound_of_no_layout hl).mp hc
    have slots : 0 < (layoutOf r.layoutCode).slots := by cases layoutOf r.layoutCode <;> decide
    refine (ringSound_of_layout (l := layoutOf r.layoutCode) rfl).mpr ⟨length, ?_, ?_, ?_, ?_⟩
    · exact oldest ▸ slots
    · exact full ▸ Nat.zero_le _
    · simp [oldest, full, fill]
    · simp [filling]
  | some l => exact hc.of_filling rfl hl.symm rfl rfl rfl id

theorem openTest_ring {l : Layout} (n : Word) (hl : s.cst.layout = some l) (hs : RingSound s.cst) :
    RingSound (openTest l n s) := by
  rcases Nat.lt_or_ge s.cst.full l.slots with room | full
  · rw [openTest_of_room room]
    exact openSlot_ring hs hl room _ _ _ _
  · rw [openTest_of_full full]
    exact missCapture_ring hs

/-- The agreement of the ring is kept by every operation of CST (R136). -/
theorem ringSound_invariant : StoreInvariant RingSound where
  initial := ⟨rfl, rfl, rfl, rfl, rfl⟩
  set x _ hs := captureSet_ring x hs
  onset _ hs := captureOnset_ring hs
  classFields s hs := hs.of_filling rfl rfl rfl rfl rfl (by simp [takeClassFields])
  ended s hs := hs.of_filling rfl rfl rfl rfl rfl (by simp [captureEnded])
  released s hs := hs.of_filling rfl rfl rfl rfl rfl (by
    cases hf : s.cst.filling <;> simp [releaseCapture, hf])
  completed _ hs := complete_ring hs
  softReset _ hs := captureSoftReset_ring hs
  test _ n _ hl hs := openTest_ring n hl hs
  freed n _ hc := freeSlots_ring n hc
  layoutFixed r _ hc := layoutAfter_ring r hc

end Sys2Proof.Machine
end

section
/-! The ring of capture slots and the pre-trigger history, through every step (R136, R137, R152). -/

namespace Sys2Proof.Machine

/-- Settles O42: the agreement speaks of the store alone, and each of CST's operations keeps it. -/
theorem ringAgreesKept : Obligations.RingAgreesKept := by
  unfold Obligations.RingAgreesKept
  intro s u hs hu
  rw [ringAgrees_iff] at hs ⊢
  exact ringSound_invariant.step hs hu

end Sys2Proof.Machine
end

section
/-! SUPPORT. FREE_RECORDS on the ring: a slot's distance from the oldest pointer, the slots that are freed, and the
execution as the standing request (R136, R147, R157, R158, R162; log 9). -/

namespace Sys2Proof.Machine

/-! The distance of a slot from a pointer, around the ring (R136). -/

theorem wrapped_sub {slots j p : Nat} (hj : j < slots) (hp : p < slots) :
    (j + slots - p) % slots = if p ≤ j then j - p else j + slots - p := by
  split
  · rename_i h
    rw [show j + slots - p = j - p + slots by omega, Nat.add_mod_right, Nat.mod_eq_of_lt (by omega)]
  · exact Nat.mod_eq_of_lt (by omega)

theorem wrapped_add {slots p m : Nat} (hp : p < slots) (hm : m ≤ slots) :
    (p + m) % slots = if p + m < slots then p + m else p + m - slots := by
  split
  · rename_i h
    exact Nat.mod_eq_of_lt h
  · rw [Nat.mod_eq_sub_mod (by omega), Nat.mod_eq_of_lt (by omega)]

/-- The pointer moves on by `m` slots: those that it passes are now the farthest. -/
theorem distance_advanced {slots j p m : Nat} (hj : j < slots) (hp : p < slots) (hm : m ≤ slots) :
    (j + slots - (p + m) % slots) % slots =
      if m ≤ (j + slots - p) % slots then (j + slots - p) % slots - m else (j + slots - p) % slots + slots - m := by
  have advanced : (p + m) % slots < slots := Nat.mod_lt _ (Nat.zero_lt_of_lt hp)
  rw [wrapped_sub hj advanced, wrapped_add hp hm, wrapped_sub hj hp]
  (repeat' split) <;> omega

/-- A slot reached from the pointer in fewer steps than there are slots stands that many away. -/
theorem distance_of_wrapped_add {slots p m : Nat} (hp : p < slots) (hm : m < slots) :
    ((p + m) % slots + slots - p) % slots = m := by
  have reached : (p + m) % slots < slots := Nat.mod_lt _ (Nat.zero_lt_of_lt hp)
  rw [wrapped_sub reached hp, wrapped_add hp (Nat.le_of_lt hm)]
  (repeat' split) <;> omega

/-! The slots freed (R136, R147). -/

variable {c : Cst} {l : Layout}

/-- The capture in fill stands behind the FULL slots. -/
theorem RingSound.distance_fill (hc : RingSound c) (hl : c.layout = some l) (h : c.filling.isSome = true) :
    (c.fill + l.slots - c.oldest) % l.slots = c.full := by
  obtain ⟨-, oldest, -, fill, room⟩ := (ringSound_of_layout hl).mp hc
  rw [← fill]
  exact distance_of_wrapped_add oldest (room h)

/-- The slots passed are FREE, and every other slot is what it was. -/
theorem slotState_freeSlots (hc : RingSound c) (hl : c.layout = some l) {j : Nat} (hj : j < l.slots) (n : Nat) :
    slotState (freeSlots n c) l j =
      if (j + l.slots - c.oldest) % l.slots < min n c.full then .free else slotState c l j := by
  obtain ⟨-, oldest, full, -, -⟩ := (ringSound_of_layout hl).mp hc
  have freed : min n c.full ≤ c.full := Nat.min_le_right _ _
  have distance := distance_advanced hj oldest (freed.trans full)
  have behind : j = c.fill ∧ c.filling.isSome = true → (j + l.slots - c.oldest) % l.slots = c.full := by
    rintro ⟨rfl, h⟩
    exact hc.distance_fill hl h
  simp only [slotState, freeSlots, advance, hl, distance]
  generalize (j + l.slots - c.oldest) % l.slots = d at behind
  by_cases passed : d < min n c.full
  · have farthest : ¬ (if min n c.full ≤ d then d - min n c.full else d + l.slots - min n c.full) <
        c.full - min n c.full := by
      rw [if_neg (by omega)]
      omega
    have notFilling : ¬ (j = c.fill ∧ c.filling.isSome = true) := fun h => by
      have := behind h
      omega
    rw [if_neg farthest, if_neg notFilling, if_pos passed]
  · have nearer : (if min n c.full ≤ d then d - min n c.full else d + l.slots - min n c.full) <
        c.full - min n c.full ↔ d < c.full := by
      rw [if_pos (by omega)]
      omega
    simp only [nearer, if_neg passed]

theorem freeSlots_of_zero (hc : RingSound c) : freeSlots 0 c = c := by
  have stands : advance c.layout c.oldest 0 = c.oldest := by
    unfold advance
    split
    · rename_i l hl
      obtain ⟨-, oldest, -⟩ := (ringSound_of_layout hl).mp hc
      exact Nat.mod_eq_of_lt oldest
    · rfl
  simp [freeSlots, stands]

/-- With every FULL slot freed the oldest pointer stands at the fill slot. -/
theorem freeSlots_of_all (hc : RingSound c) {n : Nat} (h : c.full ≤ n) :
    (freeSlots n c).full = 0 ∧ (freeSlots n c).oldest = c.fill := by
  refine ⟨by simp [freeSlots, Nat.min_eq_right h], ?_⟩
  simp only [freeSlots, Nat.min_eq_right h]
  unfold advance
  split
  · rename_i l hl
    obtain ⟨-, -, -, fill, -⟩ := (ringSound_of_layout hl).mp hc
    exact fill
  · rename_i hl
    obtain ⟨-, oldest, fill, -⟩ := (ringSound_of_no_layout hl).mp hc
    rw [oldest, fill]

/-- The FULL count fits a data word: no layout has more than sixteen slots (R135). -/
theorem RingSound.full_le (hc : RingSound c) : c.full ≤ 16 := by
  cases hl : c.layout with
  | none =>
    obtain ⟨-, -, -, full, -⟩ := (ringSound_of_no_layout hl).mp hc
    omega
  | some l =>
    obtain ⟨-, -, full, -⟩ := (ringSound_of_layout hl).mp hc
    refine full.trans ?_
    cases l <;> decide

/-! The execution (R147, R157, R158, R162; log 9). -/

variable {s : State}

theorem exec_freeRecords (g : Nat) (tag : BitVec 4) (n : Word) (s : State) :
    exec (.freeRecords g tag n) s = .next (if stands g tag 4 (some n) s then freeRecords g tag n s else s) := rfl

/-- The status by the number asked for. -/
def freedStatus (n : Word) (c : Cst) : Status :=
  if n = 0 then .badArg else if n.toNat ≤ c.full then .ok else .freeTooMany

/-- The data word: the number freed. -/
def freedData (n : Word) (c : Cst) : Word := if n.toNat ≤ c.full then n else BitVec.ofNat 32 c.full

theorem freedData_of_enough {n : Word} (h : n.toNat ≤ c.full) : freedData n c = n := if_pos h

/-- Whatever the number, the execution is one answer on the store with its slots freed. -/
theorem freeRecords_eq (g : Nat) (tag : BitVec 4) (n : Word) (hs : RingSound s.cst) :
    freeRecords g tag n s =
      answer g tag (freedStatus n s.cst) (freedData n s.cst) { s with cst := freeSlots n.toNat s.cst } := by
  unfold freeRecords freedStatus freedData
  split
  · rename_i h
    subst h
    simp [freeSlots_of_zero hs]
  · split <;> rfl

end Sys2Proof.Machine
end

section
/-! FREE_RECORDS (R136, R147, R157, R158, R162; log 9). -/

namespace Sys2Proof.Machine

/-- Settles O56: one answer on the store with its slots freed; then the pointers and the data by the number, and the
slots by their distance from the oldest pointer. -/
theorem freeRecordsFreesOldest : Obligations.FreeRecordsFreesOldest := by
  unfold Obligations.FreeRecordsFreesOldest
  refine ⟨fun g tag n s h ring => ⟨freeRecords g tag n s, ?_, ?_⟩, fun g tag n s h => ?_⟩
  · rw [exec_freeRecords, if_pos h]
  · have sound : RingSound s.cst := ring
    rw [freeRecords_eq g tag n sound]
    refine ⟨rfl, rfl, rfl, rfl, rfl, fun zero => ?_, fun nonzero enough => ?_, fun more => ?_, fun l j hl hj => ?_⟩
    · subst zero
      exact ⟨freeSlots_of_zero sound, rfl, freedData_of_enough (n := 0) (Nat.zero_le s.cst.full)⟩
    · have all : min n.toNat s.cst.full = n.toNat := Nat.min_eq_left enough
      exact ⟨by simp [freeSlots, all], (if_neg nonzero).trans (if_pos enough), freedData_of_enough enough,
        fun l hl => by simp [freeSlots, advance, hl, all]⟩
    · obtain ⟨full, oldest⟩ := freeSlots_of_all sound (Nat.le_of_lt more)
      have nonzero : n ≠ 0 := by
        rintro rfl
        exact Nat.not_lt_zero _ more
      have few := sound.full_le
      refine ⟨full, oldest, (if_neg nonzero).trans (if_neg (Nat.not_le.mpr more)), ?_⟩
      simp only [answer_rqh, freedData, if_neg (Nat.not_le.mpr more), BitVec.toNat_ofNat]
      omega
    · exact slotState_freeSlots sound hl hj n.toNat
  · rw [exec_freeRecords, if_neg (Bool.eq_false_iff.mp h)]

end Sys2Proof.Machine
end

section
/-! SUPPORT. The completion of the capture in fill: when one is due, what it reads, and the record filed with nothing
queued behind it (R142, R143, R148). -/

namespace Sys2Proof.Machine

variable {s u : State} {l : Layout} {c : Capture}

/-- Whether a capture is due is read from the store and the post tail alone. -/
theorem captureDue_congr (cst : u.cst = s.cst) (cfl : u.cfl = s.cfl) : captureDue u = captureDue s := by
  simp [captureDue, State.settings, cst, cfl]

theorem captureDue_of_idle (h : s.cst.filling = none) : captureDue s = false := by
  unfold captureDue
  rw [h]
  cases s.cst.layout <;> rfl

theorem captureDue_of_test (hl : s.cst.layout = some l) (hf : s.cst.filling = some c) (ht : c.test = true) :
    captureDue s = true ↔ l.sets ≤ c.written := by
  simp [captureDue, hl, hf, ht]

theorem captureDue_of_event (hl : s.cst.layout = some l) (hf : s.cst.filling = some c) (ht : c.test = false) :
    captureDue s = true ↔ ∃ n, c.tail = some n ∧
      (l.sets ≤ c.written ∨ (128 * s.settings.postTail ≤ n ∧ c.written % 128 = 0)) := by
  cases htail : c.tail <;> simp [captureDue, hl, hf, ht, htail]

/-- A due capture is in fill, under a layout. -/
theorem capture_of_due (h : captureDue s = true) : ∃ l c, s.cst.layout = some l ∧ s.cst.filling = some c := by
  unfold captureDue at h
  split at h
  · exact ⟨_, _, by assumption, by assumption⟩
  · cases h

/-- The summary that a completion files: a test's or an event's (R144, R150). -/
def completedSummary (s : State) (c : Capture) : Summary :=
  if c.test then testSummary s c false else eventSummary s c

theorem complete_of_lone (hl : s.cst.layout = some l) (hf : s.cst.filling = some c) (hq : s.cst.queued = none) :
    complete s = { s with cst := fileRecord l (completedSummary s c) s.cst } := by
  simp [complete, hl, hf, hq, completedSummary]

/-- A due capture with nothing queued behind it is filed, and the completion ends there. -/
theorem completeDue_eq_of_lone (hl : s.cst.layout = some l) (hf : s.cst.filling = some c) (hq : s.cst.queued = none)
    (hd : captureDue s = true) : completeDue s = { s with cst := fileRecord l (completedSummary s c) s.cst } := by
  have once : captureDue (complete s) = false := captureDue_of_idle (by simp [complete_of_lone hl hf hq])
  rw [completeDue, if_pos hd, if_neg (by simp [once]), complete_of_lone hl hf hq]

end Sys2Proof.Machine
end

section
/-! SUPPORT. A set at CST: what is written of it, and what it leaves of an arrival in OFF (R137, R140 to R143, R145,
R148). -/

namespace Sys2Proof.Machine

variable {s : State} {l : Layout} {f : Capture}

/-! The set (R137, R140, R141, R145). -/

/-- CST's work on a set reads the store alone. -/
theorem captureSet_cst_congr (x : SampleSet) {u : State} (h : u.cst = s.cst) :
    (captureSet x u).cst = (captureSet x s).cst := by
  simp only [captureSet, h]

/-- The capture in fill after a set, with room for it in the slot or without. -/
def Capture.tookSet (room : Bool) (f : Capture) : Capture :=
  { f with
    making := if f.test then f.making else f.making.countArrival
    written := if room then f.written + 1 else f.written
    tail := f.tail.map (fun n => n + 1)
    truncated := f.truncated || (!f.test && f.making.ended.isNone && !room) }

theorem Making.countArrival_eq (m : Making) : m.countArrival =
    { m with duration := if m.ended = none then satInc m.duration else m.duration } := by
  obtain ⟨onset, duration, ended, classed⟩ := m
  cases ended <;> rfl

/-- The duration goes on while the capture is of an event that has not ended (R145). -/
theorem Capture.tookSet_eq (room : Bool) (f : Capture) : f.tookSet room =
    let live := !f.test && f.making.ended.isNone
    { f with
      written := if room = true then f.written + 1 else f.written
      tail := f.tail.map (fun n => n + 1)
      truncated := f.truncated || (live && !room)
      making := { f.making with
        duration := if live = true then satInc f.making.duration else f.making.duration } } := by
  unfold tookSet Making.countArrival
  cases f.test with
  | true => rfl
  | false => cases f.making.ended.isNone <;> rfl

theorem captureSet_of_filling (x : SampleSet) (hl : s.cst.layout = some l) (hf : s.cst.filling = some f) :
    (captureSet x s).cst.filling = some (f.tookSet (decide (f.written < l.sets))) ∧
    (captureSet x s).cst.mem =
      if f.written < l.sets then Memory.writeBytes s.cst.mem (setAddr l s.cst.fill f.written) (setBytes ⟨x.v, x.i⟩)
      else s.cst.mem := by
  simp [captureSet, hl, hf, Capture.tookSet]

theorem captureSet_of_idle (x : SampleSet) (h : s.cst.filling = none) :
    (captureSet x s).cst.mem = s.cst.mem ∧ (captureSet x s).cst.filling = none := by
  cases hl : s.cst.layout <;> simp [captureSet, hl, h]

theorem captureSet_queued (x : SampleSet) (s : State) : (captureSet x s).cst.queued =
    s.cst.queued.map (fun q => { making := q.making.countArrival, atOnset := false }) := by
  unfold captureSet
  dsimp only
  split <;> rfl

/-- Layout, pointers, FULL count and missed count stand. -/
theorem captureSet_cst_frame (x : SampleSet) (s : State) : (captureSet x s).cst = { s.cst with
    mem := (captureSet x s).cst.mem, filling := (captureSet x s).cst.filling, queued := (captureSet x s).cst.queued
    history := s.cst.history.drop 1 ++ [⟨x.v, x.i⟩] } := by
  unfold captureSet
  dsimp only
  split <;> rfl

/-! An arrival in OFF (R142, R143; log 5). -/

theorem holdoverLimitReached_of_off (h : s.rsq.state = .off) : (holdoverLimitReached s).rsq = s.rsq := by
  unfold holdoverLimitReached
  split
  · rw [lockHanded_of_off (by exact h)]
  · rfl

theorem settleDue_cst_of_off (h : s.rsq.state = .off) (hd : captureDue s = false) : (settleDue s).cst = s.cst := by
  have waits : closeTimedOut .afterNo (Phases.same true) (holdoverLimitReached s) = holdoverLimitReached s := by
    simp [closeTimedOut, holdoverLimitReached_of_off h, h]
  have stands : captureDue (expireDuration (holdoverLimitReached s)) = false :=
    (captureDue_congr (by simp) (by simp)).trans hd
  simp [settleDue, waits, completeDue_of_not_due stands]

/-- In OFF no part of an arrival but a completion reaches the store, and none leaves OFF. -/
theorem arrivalPart_of_off (k : ArrivalTaking) (a : Arrival) {p : ArrivalPart} (hp : p ≠ .completion)
    (h : s.rsq.state = .off) : (arrivalPart k a p s).rsq.state = .off ∧ (arrivalPart k a p s).cst = s.cst := by
  have idle := eventActive_of_off h
  cases p <;> simp only [arrivalPart]
  case sense =>
    rw [faultTaken_of_out _ _ (.inl h)]
    split <;> exact ⟨h, rfl⟩
  case detect =>
    rw [detect_of_off _ h]
    simp [h]
  case cycleEnd =>
    split
    · exact ⟨cycleEnd_state_of_off _ _ h, by simp⟩
    · exact ⟨h, rfl⟩
  case inject =>
    rw [injectSet_of_not_handled _ _ (by simp [handles, idle])]
    exact ⟨h, rfl⟩
  case service => simp [serviceTest, readyTest, h]
  case linkRun =>
    rw [linkRunTest_of_passed_over (.inl (by simp [h]))]
    exact ⟨h, rfl⟩
  case overcurrent =>
    rw [overcurrentTest_of_passed_over _ (.inl idle)]
    exact ⟨h, rfl⟩
  case closeWaits =>
    rw [closeWaits_of_not_release _ _ _ (by simp [h])]
    exact ⟨h, rfl⟩
  case completion => exact absurd rfl hp

/-- An arrival that no soft reset abandons is its parts, in the order. -/
theorem arrive_of_noResetWithin {k : ArrivalTaking} (hk : NoResetWithin k s) (n : Nat) (g : Option SampleSet) :
    arrive k n g s = (arrivalOrder k).foldl
      (fun u p => arrivalPart k { index := n, before := s.spt.lastGood.i, sense := g.isNone && s.spt.missRun == 3 } p u)
      (takeSet n g (settleDue s)) := by
  rw [arrive_eq, takeParts_of_noResetWithin _ _ (hk.of_quiesce (by simp [takeSet_enters]))]

/-- The restorer in OFF, with the settings of one state and the store of another. -/
structure OffWith (cfl : Cfl) (cst : Cst) (v : State) : Prop where
  off : v.rsq.state = .off
  cfl : v.cfl = cfl
  cst : v.cst = cst

theorem OffWith.part {cfl : Cfl} {cst : Cst} {v : State} (h : OffWith cfl cst v) (k : ArrivalTaking) (a : Arrival)
    {p : ArrivalPart} (hp : p ≠ .completion) : OffWith cfl cst (arrivalPart k a p v) := by
  obtain ⟨off, same⟩ := arrivalPart_of_off k a hp h.off
  exact ⟨off, by simpa using h.cfl, same.trans h.cst⟩

/-- The store when the parts of an arrival in OFF begin: the set is CST's, and nothing else has reached it. -/
theorem takeSet_offWith (n : Nat) (x : SampleSet) (h : s.rsq.state = .off) (hd : captureDue s = false) :
    OffWith s.cfl (captureSet x s).cst (takeSet n (some x) (settleDue s)) where
  off := (takeSet_state _ _ _).trans (settleDue_state_of_off h)
  cfl := by simp
  cst := (takeSet_cst _ _ _).trans (captureSet_cst_congr x (settleDue_cst_of_off h hd))

/-- Where the set makes no capture due, or the completion is left apart, the store stands through the arrival. -/
theorem arrive_cst_of_off {k : ArrivalTaking} (hk : NoResetWithin k s) (n : Nat) (x : SampleSet)
    (h : s.rsq.state = .off) (hd : captureDue s = false)
    (hc : captureDue (captureSet x s) = false ∨ k.completion = .apart) :
    (arrive k n (some x) s).cst = (captureSet x s).cst := by
  rw [arrive_of_noResetWithin hk]
  generalize ({ index := n, before := s.spt.lastGood.i
                sense := (some x).isNone && s.spt.missRun == 3 } : Arrival) = a
  have ends : OffWith s.cfl (captureSet x s).cst ((arrivalOrder k).foldl (fun u p => arrivalPart k a p u)
      (takeSet n (some x) (settleDue s))) := by
    refine List.foldlRecOn _ _ (takeSet_offWith n x h hd) fun v hv p _ => ?_
    by_cases hp : p = .completion
    · subst hp
      simp only [arrivalPart]
      split
      · exact hv
      · rename_i taken
        have notDue : captureDue v = false :=
          (captureDue_congr (s := captureSet x s) hv.cst (hv.cfl.trans (by simp))).trans (hc.resolve_right taken)
        rwa [completeDue_of_not_due notDue]
    · exact hv.part k a hp
  exact ends.cst

/-- A record is filed: the slot is FULL, the fill pointer moves on, and no capture is in fill (R143). -/
def Filed (l : Layout) (before after : Cst) : Prop :=
  after.filling = none ∧ after.full = before.full + 1 ∧ after.fill = (before.fill + 1) % l.slots

theorem completeDue_files (hl : s.cst.layout = some l) (hq : s.cst.queued = none) (hd : captureDue s = true) :
    Filed l s.cst (completeDue s).cst := by
  obtain ⟨l', c, hl', hf⟩ := capture_of_due hd
  obtain rfl : l = l' := Option.some.inj (hl.symm.trans hl')
  rw [completeDue_eq_of_lone hl hf hq hd]
  simp [Filed]

/-- On the way through the parts of an arrival in OFF: the store as the set left it, or with its record filed. -/
structure SetOrFiled (cfl : Cfl) (l : Layout) (taken : Cst) (v : State) : Prop where
  off : v.rsq.state = .off
  cfl : v.cfl = cfl
  cst : v.cst = taken ∨ Filed l taken v.cst

/-- A completion files the record, or finds it filed. -/
theorem SetOrFiled.filed_by_completion {cfl : Cfl} {taken : Cst} {v : State} (h : SetOrFiled cfl l taken v)
    (hl : taken.layout = some l) (hq : taken.queued = none)
    (due : ∀ v, v.cfl = cfl → v.cst = taken → captureDue v = true) : Filed l taken (completeDue v).cst := by
  rcases h.cst with same | filed
  · have files := completeDue_files (s := v) (l := l) (by rw [same, hl]) (by rw [same, hq])
      (due v h.cfl same)
    rwa [same] at files
  · obtain ⟨idle, -⟩ := id filed
    rwa [completeDue_of_not_due (captureDue_of_idle idle)]

/-- A capture that the set makes due is filed once, wherever its completion stands in the order. -/
theorem arrive_files_of_off {k : ArrivalTaking} (hk : NoResetWithin k s) (n : Nat) (x : SampleSet)
    (h : s.rsq.state = .off) (hd : captureDue s = false) (hl : s.cst.layout = some l)
    (hw : captureDue (captureSet x s) = true) (ht : k.completion ≠ .apart) (hq : s.cst.queued = none) :
    Filed l (captureSet x s).cst (arrive k n (some x) s).cst := by
  have layout : (captureSet x s).cst.layout = some l := by rw [captureSet_cst_frame]; exact hl
  have queued : (captureSet x s).cst.queued = none := by simp [captureSet_queued, hq]
  have due : ∀ v : State, v.cfl = s.cfl → v.cst = (captureSet x s).cst → captureDue v = true :=
    fun v cfl cst => (captureDue_congr cst (cfl.trans (by simp))).trans hw
  obtain ⟨off, cfl, cst⟩ := takeSet_offWith n x h hd
  have mem : ArrivalPart.completion ∈ arrivalOrder k := List.count_pos_iff.mp (by rw [count_arrivalOrder]; decide)
  rw [arrive_of_noResetWithin hk]
  generalize ({ index := n, before := s.spt.lastGood.i
                sense := (some x).isNone && s.spt.missRun == 3 } : Arrival) = a
  have files : ∀ v, SetOrFiled s.cfl l (captureSet x s).cst v →
      Filed l (captureSet x s).cst (arrivalPart k a .completion v).cst := by
    intro v hv
    simp only [arrivalPart, if_neg ht]
    exact hv.filed_by_completion layout queued due
  refine foldl_reaches _ (SetOrFiled s.cfl l (captureSet x s).cst) (fun v => Filed l (captureSet x s).cst v.cst)
    .completion (fun v p hv => ?keep) files (fun v p hv filed => ?stay) mem ⟨off, cfl, .inl cst⟩
  case keep =>
    by_cases hp : p = .completion
    · subst hp
      refine ⟨?_, by simpa using hv.cfl, .inr (files v hv)⟩
      simp only [arrivalPart, if_neg ht, completeDue_frame]
      exact hv.off
    · obtain ⟨off, same⟩ := arrivalPart_of_off k a hp hv.off
      exact ⟨off, by simpa using hv.cfl, same ▸ hv.cst⟩
  case stay =>
    by_cases hp : p = .completion
    · subst hp
      exact files v hv
    · obtain ⟨-, same⟩ := arrivalPart_of_off k a hp hv.off
      rwa [same]

end Sys2Proof.Machine
end

section
/-! CST's work on a set, and an arrival in OFF (R137, R140 to R143, R145, R148; log 5, 6, 23). -/

namespace Sys2Proof.Machine

/-- Settles O20: the set as it is taken, its bytes by whether there is room, and the parts of an arrival in OFF, of
which a completion alone reaches the store. -/
theorem arrivalWritesItsPosition : Obligations.ArrivalWritesItsPosition := by
  unfold Obligations.ArrivalWritesItsPosition
  refine ⟨takeSet_cst, fun set s => ?set, fun t set k s o hk ho ht hp off notDue => ?arrival⟩
  case set =>
    intro u
    refine ⟨rfl, captureSet_cst_frame set s, fun hq => ?_, fun q hq => ?_, captureSet_of_idle set,
      fun l f hl hf => ?filling⟩
    · simp [u, captureSet_queued, hq]
    · simp [u, captureSet_queued, hq, Making.countArrival_eq]
    case filling =>
      obtain ⟨filling, mem⟩ := captureSet_of_filling set hl hf
      intro room live
      refine ⟨filling.trans (congrArg some (f.tookSet_eq room)), fun full => ?_, fun roomy canonical => ?_⟩
      · exact mem.trans (if_neg (of_decide_eq_false full))
      · rw [show u.cst.mem = _ from mem.trans (if_pos (of_decide_eq_true roomy))]
        refine ⟨fun n => ?_, fun a ha => Memory.read_writeBytes_outside _ _ _ ha⟩
        have hn : n.val < (setBytes ⟨set.v, set.i⟩).length := n.isLt
        rw [Memory.read_writeBytes_inside canonical _ _ hn, List.getD_eq_getElem _ _ hn]
  case arrival =>
    intro w
    have moved : NoResetWithin k (s.moveTo t) := NoResetWithin.of_quiesce hk (by simp)
    refine ⟨_, exec_eq_effect _ s, ?_⟩
    simp only [effect, setArrives_in_time set k ho ht, hp, if_true]
    have stands := arrive_cst_of_off moved o.index (saturatedSet set) off notDue
    refine ⟨fun hw => stands (.inl hw), fun _ apart => stands (.inr apart), fun l hl hw taken hq => ?_⟩
    obtain ⟨idle, full, fill⟩ := arrive_files_of_off moved o.index (saturatedSet set) off notDue hl hw taken hq
    rw [captureSet_cst_frame] at full fill
    exact ⟨idle, full, fill⟩

end Sys2Proof.Machine
end

section
/-! SUPPORT. CST at an onset: what the opening reads, its cases, its bytes, and the class fields taken before it (R138 to
R140, R144, R149, R151). -/

namespace Sys2Proof.Machine

variable {s u : State} {l : Layout} {c : Capture}

/-! The class fields (R144). -/

theorem Making.takeClass_eq (f : ClassFields) (m : Making) :
    m.takeClass f = if m.ended ≠ none ∧ m.classed = none then { m with classed := some f } else m := by
  obtain ⟨onset, duration, ended, classed⟩ := m
  cases ended <;> cases classed <;> rfl

/-! The opening (R138, R139, R140, R149). -/

/-- The opening reads the store, the event's number, the frame and the age of the reference. -/
theorem captureOnset_cst_congr (cst : u.cst = s.cst) (event : u.rsq.event = s.rsq.event) (slc : u.slc = s.slc)
    (now : u.now = s.now) (pru : u.pru = s.pru) : (captureOnset u).cst = (captureOnset s).cst := by
  simp only [captureOnset, onsetFields, framePosition, cst, event, slc, now, pru]

/-- The record that an onset makes (R138, R145). -/
def onsetMaking (s : State) : Making where
  onset := onsetFields s
  duration := 1
  ended := none
  classed := none

theorem captureOnset_of_missed (h : s.cst.layout = none ∨
      (∃ l, s.cst.layout = some l ∧ s.cst.filling = none ∧ l.slots ≤ s.cst.full) ∨
      (∃ c, s.cst.filling = some c ∧ c.test = false ∧ (c.tail = none ∨ s.cst.queued.isSome = true))) :
    (captureOnset s).cst = missCapture s.cst := by
  rcases h with hl | ⟨l, hl, hf, full⟩ | ⟨c, hf, ht, behind⟩
  · simp [captureOnset, hl]
  · simp [captureOnset, hl, hf, ringFull, full]
  · have unqueued : (c.tail.isSome && s.cst.queued.isNone) = false := by
      rcases behind with h | h
      · simp [h]
      · obtain ⟨q, hq⟩ := Option.isSome_iff_exists.mp h
        simp [hq]
    cases hl : s.cst.layout <;> simp [captureOnset, hl, hf, ht, unqueued]

theorem captureOnset_of_queued (hl : s.cst.layout = some l) (hf : s.cst.filling = some c) (ht : c.test = false)
    (tail : c.tail.isSome = true) (hq : s.cst.queued = none) :
    (captureOnset s).cst = { s.cst with queued := some { making := onsetMaking s, atOnset := true } } := by
  simp [captureOnset, hl, hf, ht, tail, hq, onsetMaking]

/-- The fill slot is FREE, or a test capture's: the event's capture opens in it. -/
theorem captureOnset_of_opened (hl : s.cst.layout = some l)
    (h : (s.cst.filling = none ∧ s.cst.full < l.slots) ∨ (∃ c, s.cst.filling = some c ∧ c.test = true)) :
    (captureOnset s).cst = openSlot l (onsetMaking s) none false false s.cst := by
  rcases h with ⟨hf, room⟩ | ⟨c, hf, ht⟩
  · simp [captureOnset, hl, hf, ringFull, Nat.not_le.mpr room, onsetMaking]
  · simp [captureOnset, hl, hf, ht, onsetMaking]

/-- An opening's bytes: the history as record cycle 0, the summary area at 0, and every other byte standing (R138, R151;
log 23). -/
theorem openSlot_bytes (hl : s.cst.layout = some l) (canonical : MemoryCanonical s) (ring : RingAgrees s) (m : Making)
    (tail : Option Nat) (delayed test : Bool) :
    let opened := openSlot l m tail delayed test s.cst
    (∀ (q : Fin 128) (n : Fin 12), Memory.read opened.mem (setAddr l s.cst.fill q + n) =
      (setBytes (s.cst.history.getD q ⟨Phases.same 0, Phases.same 0⟩)).getD n 0) ∧
    (∀ w : Fin 16, recordWord opened l s.cst.fill w = 0) ∧
    (∀ a, (a < setAddr l s.cst.fill 0 ∨ setAddr l s.cst.fill 128 ≤ a) →
      (a < summaryAddr s.cst.fill ∨ summaryAddr s.cst.fill + 64 ≤ a) →
      Memory.read opened.mem a = Memory.read s.cst.mem a) := by
  have length : s.cst.history.length = 128 := RingSound.length_history ring
  have sets : s.cst.history.length ≤ l.sets := by
    rw [length]
    cases l <;> decide
  refine ⟨fun q n => ?_, fun w => recordWord_openSlot canonical (ring.fill_lt hl) sets w.isLt, fun a hset hsum => ?_⟩
  · have hq : q.val < s.cst.history.length := by
      rw [length]
      exact q.isLt
    rw [read_openSlot_set canonical hq n.isLt, List.getD_eq_getElem _ _ hq]
  · exact read_openSlot_outside (by rwa [length]) hsum

end Sys2Proof.Machine
end

section
/-! SUPPORT. The onset as it reaches CST: the action found at once where k is 0, and the refused onset's end (R87, R113,
R114, R146). -/

namespace Sys2Proof.Machine

variable {s : State}

/-! The classification of k = 0 (R85, R87, R146). -/

theorem exitInject_event (c : EndCause) (s : State) : (exitInject c s).rsq.event = s.rsq.event := by
  unfold exitInject
  split <;> rfl

theorem classify_event (b b' : Bool) (cls : EventClass) (s : State) :
    (classify b b' cls s).rsq.event = s.rsq.event := by
  unfold classify
  dsimp only
  obtain ⟨rsq, -⟩ := applyAction_handed { s with evc := { s.evc with
    eventClass := cls, window := false, matched := (searchTable cls s).map Prod.fst } } b b'
    ((searchTable cls s).map Prod.snd)
  rw [rsq]
  rcases handAction_cases b b' _ _ _ with h | h | h <;> rw [h] <;> simp [exitInject_event, actionRecorded]

/-- The search reads the onset record and the table alone (R80). -/
theorem searchTable_congr (cls : EventClass) {u : State} (sdu : u.sdu = s.sdu) (table : u.evc.table = s.evc.table) :
    searchTable cls u = searchTable cls s := by
  simp only [searchTable, sdu, table]

theorem classify_table (b b' : Bool) (cls : EventClass) (s : State) :
    (classify b b' cls s).evc.table = s.evc.table := by
  unfold classify
  dsimp only
  rw [applyAction_evc]

/-- The action that a classification finds says capture "no". -/
def FindsNo (cls : EventClass) (s : State) : Prop := ∃ n e, searchTable cls s = some (n, e) ∧ e.capture = false

theorem classify_cst_of_no (b b' : Bool) {cls : EventClass} (h : FindsNo cls s) :
    (classify b b' cls s).cst = (releaseCapture s).cst := by
  obtain ⟨n, e, found, no⟩ := h
  simp only [classify, applyAction_cst, found]
  simp [no, releaseCapture]

theorem classify_cst_of_kept (b b' : Bool) {cls : EventClass} (h : ¬ FindsNo cls s) :
    (classify b b' cls s).cst = s.cst := by
  have kept : (((searchTable cls s).map Prod.snd).map TableEntry.capture).getD true = true := by
    cases found : searchTable cls s with
    | none => rfl
    | some p => simpa [FindsNo, found, Prod.ext_iff] using h
  simp only [classify, applyAction_cst, kept, if_true]

/-! The onset at CST (R113, R114, R138). -/

/-- What CST reads at an onset that leads to `u`: the class fields taken, and the other blocks as `u` has them. -/
def handedOnset (s u : State) : State :=
  { takeClassFields s with rsq := u.rsq, inc := u.inc, sdu := u.sdu, evc := u.evc }

/-- The opening of an onset is read off any state that gives its number. -/
theorem captureOnset_handedOnset {u x : State} (event : u.rsq.event = x.rsq.event)
    (cst : x.cst = (takeClassFields s).cst) (slc : x.slc = s.slc) (now : x.now = s.now) (pru : x.pru = s.pru) :
    (captureOnset (handedOnset s u)).cst = (captureOnset x).cst :=
  captureOnset_cst_congr cst.symm event slc.symm now.symm pru.symm

/-- An onset taken: CST's opening, and where k is 0 the action found at once (R87, R146). -/
theorem detect_cst_of_taken (k : CompletionTaking) (h : onsetHere s = true) (hb : 0 < s.esa.budget) :
    let u := detect k s
    let opened := captureOnset (handedOnset s u)
    (s.settings.k ≠ 0 ∨ ¬ FindsNo .grid u → u.cst = opened.cst) ∧
    (s.settings.k = 0 → FindsNo .grid u →
      u.cst = (releaseCapture { opened with rsq := u.rsq }).cst) := by
  intro u opened
  have hu : u = if s.settings.k = 0 then classify false false .grid (captureOnset (injectingAt s))
      else captureOnset (injectingAt s) := (detect_of_onset k h).trans (takeOnset_of_budget k hb)
  have event : u.rsq.event = (captureOnset (injectingAt s)).rsq.event := by
    rw [hu]
    split
    · exact classify_event _ _ _ _
    · rfl
  have search : searchTable .grid u = searchTable .grid (captureOnset (injectingAt s)) := by
    rw [hu]
    split
    · exact searchTable_congr .grid (by simp) (classify_table _ _ _ _)
    · rfl
  have finds : FindsNo .grid u ↔ FindsNo .grid (captureOnset (injectingAt s)) := by
    unfold FindsNo
    rw [search]
  have cst : opened.cst = (captureOnset (injectingAt s)).cst := by
    refine captureOnset_handedOnset event ?_ ?_ ?_ ?_ <;> rw [injectingAt_eq] <;> simp
  refine ⟨fun kept => ?_, fun grid no => ?_⟩
  · rw [cst, hu]
    split
    · rename_i grid
      exact classify_cst_of_kept _ _ (finds.not.mp (kept.resolve_left (fun hk => hk grid)))
    · rfl
  · have released : u.cst = (releaseCapture (captureOnset (injectingAt s))).cst := by
      rw [hu, if_pos grid, classify_cst_of_no _ _ (finds.mp no)]
    rw [released]
    simp only [releaseCapture, cst, event]

/-- With its window closed EVC finds no action at the event's end, and CST settles the record on what was handed (R77,
R84, R142). -/
theorem handEnd_of_closed (k : CompletionTaking) (h : s.evc.window = false) :
    handEnd k s = settleRecord k false
      { captureEnded (quietBlocks s) with evc := { s.evc with override := none, expiryDue := false } } := by
  have no : endCaptureNo (captureEnded (quietBlocks s)) = false := by simp [endCaptureNo, endSearch, h]
  unfold handEnd
  dsimp only
  rw [no, classifyAtEnd, if_neg (by simp [h])]
  rfl

/-- An event's end quiets the blocks that it finds quiet already (R77, R101, R124). -/
theorem handEnd_of_quieted (k : CompletionTaking) (h : s.evc.window = false) :
    handEnd k { s with
      inc := { s.inc with port := Phases.same 0 }
      sdu := { s.sdu with record := { s.sdu.record with isOpen := false } }
      evc := { s.evc with override := none, expiryDue := false } } = handEnd k s := by
  rw [handEnd_of_closed k h, handEnd_of_closed k (by exact h)]
  rfl

theorem refusedAt_frame (s : State) :
    (refusedAt s).pins = s.pins ∧ (refusedAt s).now = s.now ∧ (refusedAt s).spt = s.spt ∧ (refusedAt s).pru = s.pru ∧
    (refusedAt s).esa = s.esa ∧ (refusedAt s).slc = s.slc ∧ (refusedAt s).rqh = s.rqh ∧ (refusedAt s).cfl = s.cfl ∧
    (refusedAt s).pending = s.pending := by
  rw [refusedAt_eq]
  simp

/-- An onset refused: CST's opening, and the event's end handed at once (R114, R146). -/
theorem detect_cst_of_refused (k : CompletionTaking) (h : onsetHere s = true) (hb : s.esa.budget = 0) :
    (detect k s).cst = (handEnd k (captureOnset (handedOnset s (detect k s)))).cst := by
  have hu : detect k s = handEnd k (refusedAt s) := (detect_of_onset k h).trans (takeOnset_of_no_budget k hb)
  have opened : captureOnset (handedOnset s (detect k s)) = { refusedAt s with
      inc := { (refusedAt s).inc with port := Phases.same 0 }
      sdu := { (refusedAt s).sdu with record := { (refusedAt s).sdu.record with isOpen := false } }
      evc := { (refusedAt s).evc with override := none, expiryDue := false } } := by
    have rsq : (detect k s).rsq = (refusedAt s).rsq := by simp [hu]
    have inc : (detect k s).inc = { (refusedAt s).inc with port := Phases.same 0 } := by rw [hu, handEnd_eq]
    have sdu : (detect k s).sdu =
        { (refusedAt s).sdu with record := { (refusedAt s).sdu.record with isOpen := false } } := by rw [hu, handEnd_eq]
    have evc : (detect k s).evc = { (refusedAt s).evc with override := none, expiryDue := false } := by
      rw [hu, handEnd_evc_of_closed k rfl]
    have cst : (captureOnset (handedOnset s (detect k s))).cst = (refusedAt s).cst :=
      captureOnset_handedOnset (x := refusedAtClassifier (refuseOnset (onsetNumbered s))) (by rw [rsq]; rfl)
        (by simp [onsetNumbered]) (by simp [onsetNumbered]) (by simp [onsetNumbered]) (by simp [onsetNumbered])
    apply state_ext <;> simp [handedOnset, rsq, inc, sdu, evc, ← cst, refusedAt_frame]
  rw [opened, handEnd_of_quieted k rfl, hu]

end Sys2Proof.Machine
end

section
/-! CST at an onset (R36, R87, R113, R114, R138 to R140, R144, R146, R149, R151; log 23, 32). -/

namespace Sys2Proof.Machine

/-- Settles O40: the class fields, then the onset as it reaches CST, then the opening by what stands in the fill slot. -/
theorem captureOpensAtOnset : Obligations.CaptureOpensAtOnset := by
  unfold Obligations.CaptureOpensAtOnset
  refine ⟨fun s => ⟨fun h => ?_, fun g h => ?_⟩, ?fields, ?onset, ?opening⟩
  · simp [framePosition, h]
  · simp [framePosition, h, Config.positionCap, Config.microsecond]
  case fields =>
    intro s fields classed
    have taken : Making.takeClass (classFields s) = classed := funext (Making.takeClass_eq _)
    simp only [takeClassFields, taken]
  case onset =>
    intro k s h u handed v no
    refine ⟨fun hb kept => (detect_cst_of_taken k h hb).1 kept, fun hb grid found => ?_,
      fun hb => detect_cst_of_refused k h hb⟩
    rw [show u.cst = _ from (detect_cst_of_taken k h hb).2 grid found]
    exact releaseCapture_cst_spec _
  case opening =>
    intro s m u
    refine ⟨rfl, fun missed => captureOnset_of_missed missed, fun c l hl hf ht tail hq =>
      captureOnset_of_queued hl hf ht tail hq, fun l hl opens => ?_⟩
    have opened : u.cst = openSlot l m none false false s.cst := captureOnset_of_opened hl opens
    rw [opened]
    exact ⟨rfl, fun canonical ring => openSlot_bytes hl canonical ring m none false false⟩

end Sys2Proof.Machine
end

section
/-! SUPPORT. A completion with an opening queued behind it: where the opening is made, what it leaves of the record just
filed, and when it is due at once (R139, R140, R142, R143). -/

namespace Sys2Proof.Machine

variable {s : State} {l : Layout} {c : Capture} {q : Queued}

/-! When a capture is due (R142). -/

theorem captureDue_iff (s : State) : captureDue s = true ↔ ∃ l c, s.cst.layout = some l ∧ s.cst.filling = some c ∧
    ((c.test = true ∧ l.sets ≤ c.written) ∨
     (c.test = false ∧ ∃ n, c.tail = some n ∧
       (l.sets ≤ c.written ∨ (128 * s.settings.postTail ≤ n ∧ c.written % 128 = 0)))) := by
  constructor
  · intro due
    obtain ⟨l, c, hl, hf⟩ := capture_of_due due
    refine ⟨l, c, hl, hf, ?_⟩
    cases ht : c.test with
    | true => exact .inl ⟨rfl, (captureDue_of_test hl hf ht).mp due⟩
    | false => exact .inr ⟨rfl, (captureDue_of_event hl hf ht).mp due⟩
  · rintro ⟨l, c, hl, hf, ⟨ht, full⟩ | ⟨ht, tail⟩⟩
    · exact (captureDue_of_test hl hf ht).mpr full
    · exact (captureDue_of_event hl hf ht).mpr tail

/-! The slot after the one filed (R136, R143; log 23). -/

theorem next_slot_ne (l : Layout) (n : Nat) : (n + 1) % l.slots ≠ n := by
  have slots : 1 < l.slots := by cases l <;> decide
  intro h
  have below : n < l.slots := h ▸ Nat.mod_lt _ (by omega)
  rcases Nat.lt_or_ge (n + 1) l.slots with room | wraps
  · rw [Nat.mod_eq_of_lt room] at h
    omega
  · rw [show n + 1 = l.slots by omega, Nat.mod_self] at h
    omega

/-- The summary words of a slot are read from its summary area alone (log 23). -/
theorem recordWord_congr {d d' : Cst} (l : Layout) {slot n : Nat} (hn : n < 16)
    (area : ∀ a, summaryAddr slot ≤ a → a < summaryAddr slot + 64 → Memory.read d'.mem a = Memory.read d.mem a) :
    recordWord d' l slot n = recordWord d l slot n := by
  have bytes : Memory.readBytes d'.mem (summaryAddr slot + 4 * n) 4 =
      Memory.readBytes d.mem (summaryAddr slot + 4 * n) 4 := by
    simp only [Memory.readBytes]
    rw [area _ (by omega) (by omega), area _ (by omega) (by omega), area _ (by omega) (by omega),
      area _ (by omega) (by omega)]
  rw [recordWord, recordWord, if_pos hn, if_pos hn, Memory.readWord, Memory.readWord, bytes]

/-- Summary areas of two slots do not meet. -/
theorem summaryAddr_apart {m n a : Nat} (h : m ≠ n) (above : summaryAddr n ≤ a) (below : a < summaryAddr n + 64) :
    a < summaryAddr m ∨ summaryAddr m + 64 ≤ a := by
  unfold summaryAddr at *
  omega

/-- An opening leaves the summary words of every other slot. -/
theorem recordWord_openSlot_other {d : Cst} (fill : d.fill < l.slots) (history : d.history.length = 128) {slot n : Nat}
    (other : d.fill ≠ slot) (hn : n < 16) (m : Making) (tail : Option Nat) (delayed test : Bool) :
    recordWord (openSlot l m tail delayed test d) l slot n = recordWord d l slot n := by
  refine recordWord_congr l hn fun a above below => read_openSlot_outside (.inr ?_) (summaryAddr_apart other above below)
  have sets : d.history.length ≤ l.sets := by
    rw [history]
    cases l <;> decide
  have base : Config.summaryBase ≤ summaryAddr slot := Nat.le_add_right _ _
  exact ((setAddr_le_summaryBase fill sets).trans base).trans above

theorem recordWord_fileRecord_other {d : Cst} {slot n : Nat} (other : d.fill ≠ slot) (hn : n < 16) (m : Summary) :
    recordWord (fileRecord l m d) l slot n = recordWord d l slot n :=
  recordWord_congr l hn fun _ above below => read_fileRecord_outside l m d (summaryAddr_apart other above below)

/-! The opening made at the completion (R139, R140, R142). -/

/-- The post tail that a queued capture opens in, when its event has ended already. -/
def Queued.tail (q : Queued) : Option Nat := if q.making.ended = none then none else some 0

/-- The capture that a queued opening opens (R140, R142). -/
def Queued.opened (q : Queued) : Capture where
  making := q.making
  written := 128
  tail := q.tail
  truncated := false
  delayed := !q.atOnset
  test := false

theorem openQueued_of_full {d : Cst} (h : l.slots ≤ d.full) : openQueued l q d = missCapture d := by
  simp [openQueued, ringFull, h]

theorem openQueued_of_room {d : Cst} (h : d.full < l.slots) :
    openQueued l q d = openSlot l q.making q.tail (!q.atOnset) false d := by
  have tail : q.tail = if q.making.ended.isSome then some 0 else none := by
    unfold Queued.tail
    cases q.making.ended <;> rfl
  simp [openQueued, ringFull, Nat.not_le.mpr h, tail]

theorem complete_of_queued (hl : s.cst.layout = some l) (hf : s.cst.filling = some c) (hq : s.cst.queued = some q) :
    complete s = { s with cst := openQueued l q (fileRecord l (completedSummary s c) s.cst) } := by
  simp [complete, hl, hf, hq, completedSummary]

/-- A capture just opened from the queue is due at once when its event has ended and the post tail is 0 (R142). -/
theorem captureDue_of_opened (hl : s.cst.layout = some l) (hf : s.cst.filling = some q.opened) :
    captureDue s = true ↔ q.making.ended ≠ none ∧ s.settings.postTail = 0 := by
  have unfilled : ¬ l.sets ≤ 128 := by cases l <;> decide
  rw [captureDue_of_event hl hf rfl]
  cases h : q.making.ended <;> simp [Queued.opened, Queued.tail, h, unfilled]

/-- The next slot is FULL: the record is filed and the opening counted missed (R139, R140). -/
theorem completeDue_of_queued_missed (hl : s.cst.layout = some l) (hf : s.cst.filling = some c)
    (hq : s.cst.queued = some q) (hd : captureDue s = true) (full : l.slots ≤ s.cst.full + 1) :
    completeDue s = { s with cst := missCapture (fileRecord l (completedSummary s c) s.cst) } := by
  have missed := complete_of_queued hl hf hq
  rw [openQueued_of_full (by simpa using full)] at missed
  have ends : captureDue (complete s) = false := captureDue_of_idle (by simp [missed])
  rw [completeDue, if_pos hd, if_neg (by simp [ends]), missed]

/-- The opening is made in the next slot, and the completion ends there (R140). -/
theorem completeDue_of_queued_opened (hl : s.cst.layout = some l) (hf : s.cst.filling = some c)
    (hq : s.cst.queued = some q) (hd : captureDue s = true) (room : s.cst.full + 1 < l.slots)
    (goesOn : q.making.ended = none ∨ 0 < s.settings.postTail) :
    completeDue s = { s with
      cst := openSlot l q.making q.tail (!q.atOnset) false (fileRecord l (completedSummary s c) s.cst) } := by
  have opened := complete_of_queued hl hf hq
  rw [openQueued_of_room (by simpa using room)] at opened
  have layout : (complete s).cst.layout = some l := by simp [hl]
  have filling : (complete s).cst.filling = some q.opened := by rw [opened]; rfl
  have ends : ¬ captureDue (complete s) = true := by
    rw [captureDue_of_opened layout filling]
    rintro ⟨ended, noTail⟩
    rcases goesOn with h | h
    · exact ended h
    · have same : s.settings.postTail = 0 := by simpa [State.settings] using noTail
      omega
  rw [completeDue, if_pos hd, if_neg ends, opened]

/-- The opening's event has ended and there is no post tail: its record is filed behind the first (R142). -/
theorem completeDue_of_queued_filed (hl : s.cst.layout = some l) (hf : s.cst.filling = some c)
    (hq : s.cst.queued = some q) (hd : captureDue s = true) (room : s.cst.full + 1 < l.slots)
    (ended : q.making.ended ≠ none) (noTail : s.settings.postTail = 0) :
    completeDue s = { s with
      cst := fileRecord l (completedSummary (complete s) q.opened)
        (openSlot l q.making q.tail (!q.atOnset) false (fileRecord l (completedSummary s c) s.cst)) } := by
  have opened := complete_of_queued hl hf hq
  rw [openQueued_of_room (by simpa using room)] at opened
  have layout : (complete s).cst.layout = some l := by simp [hl]
  have filling : (complete s).cst.filling = some q.opened := by rw [opened]; rfl
  have unqueued : (complete s).cst.queued = none := by rw [opened]; rfl
  have due : captureDue (complete s) = true :=
    (captureDue_of_opened layout filling).mpr ⟨ended, by simpa [State.settings] using noTail⟩
  rw [completeDue, if_pos hd, if_pos due, complete_of_lone layout filling unqueued]
  generalize completedSummary (complete s) q.opened = m
  rw [opened]

end Sys2Proof.Machine
end

section
/-! SUPPORT. The sixteen summary words, field by field (R159, R181). -/

namespace Sys2Proof.Machine

/-! Two halves and four bytes of a word. -/

theorem halves_of_append (x y : Half) :
    (x ++ y : Word).extractLsb' 16 16 = x ∧ (x ++ y : Word).extractLsb' 0 16 = y :=
  ⟨BitVec.extractLsb'_append_eq_left, BitVec.extractLsb'_append_eq_right⟩

theorem bytes_of_append (x y z u : Byte) :
    (x ++ y ++ z ++ u : Word).extractLsb' 24 8 = x ∧ (x ++ y ++ z ++ u : Word).extractLsb' 16 8 = y ∧
    (x ++ y ++ z ++ u : Word).extractLsb' 8 8 = z ∧ (x ++ y ++ z ++ u : Word).extractLsb' 0 8 = u := by
  have third : (x ++ y ++ z ++ u).extractLsb' 24 8 = (x ++ y ++ z).extractLsb' 16 8 :=
    BitVec.extractLsb'_append_eq_of_le (by decide)
  have second : (x ++ y ++ z ++ u).extractLsb' 16 8 = (x ++ y ++ z).extractLsb' 8 8 :=
    BitVec.extractLsb'_append_eq_of_le (by decide)
  have first : (x ++ y ++ z ++ u).extractLsb' 8 8 = (x ++ y ++ z).extractLsb' 0 8 :=
    BitVec.extractLsb'_append_eq_of_le (by decide)
  have top : (x ++ y ++ z).extractLsb' 16 8 = (x ++ y).extractLsb' 8 8 :=
    BitVec.extractLsb'_append_eq_of_le (by decide)
  have middle : (x ++ y ++ z).extractLsb' 8 8 = (x ++ y).extractLsb' 0 8 :=
    BitVec.extractLsb'_append_eq_of_le (by decide)
  exact ⟨third.trans (top.trans BitVec.extractLsb'_append_eq_left),
    second.trans (middle.trans BitVec.extractLsb'_append_eq_right), first.trans BitVec.extractLsb'_append_eq_right,
    BitVec.extractLsb'_append_eq_right⟩

theorem bits_of_mask (x : Phases Bool) :
    (x.bits.setWidth 8).getLsbD 0 = x.a ∧ (x.bits.setWidth 8).getLsbD 1 = x.b ∧
    (x.bits.setWidth 8).getLsbD 2 = x.c ∧ (x.bits.setWidth 8).extractLsb' 3 5 = 0 := by
  obtain ⟨a, b, c⟩ := x
  revert a b c
  decide

/-- The flags of word 11 (R181). -/
def summaryFlags (m : Summary) : Byte :=
  0#2 ++ BitVec.ofBool m.delayed ++ BitVec.ofBool m.test ++ BitVec.ofBool m.resag ++
    BitVec.ofBool m.classed.stale ++ BitVec.ofBool m.limited ++ BitVec.ofBool m.truncated

theorem bits_of_flags (m : Summary) :
    (summaryFlags m).getLsbD 0 = m.truncated ∧ (summaryFlags m).getLsbD 1 = m.limited ∧
    (summaryFlags m).getLsbD 2 = m.classed.stale ∧ (summaryFlags m).getLsbD 3 = m.resag ∧
    (summaryFlags m).getLsbD 4 = m.test ∧ (summaryFlags m).getLsbD 5 = m.delayed ∧
    (summaryFlags m).extractLsb' 6 2 = 0 := by
  unfold summaryFlags
  generalize m.truncated = a, m.limited = b, m.classed.stale = c, m.resag = d, m.test = e, m.delayed = f
  revert a b c d e f
  decide

/-- A bit of a word is the bit of its byte. -/
theorem getLsbD_of_byte {w : Word} {b : Byte} {lsb : Nat} (h : w.extractLsb' lsb 8 = b) {n : Nat} (hn : n < 8) :
    w.getLsbD (lsb + n) = b.getLsbD n := by
  rw [← h, BitVec.getLsbD_extractLsb']
  simp [hn]

theorem extractLsb'_of_byte {w : Word} {b : Byte} {lsb : Nat} (h : w.extractLsb' lsb 8 = b) {n len : Nat}
    (hn : n + len ≤ 8) : w.extractLsb' (lsb + n) len = b.extractLsb' n len := by
  refine BitVec.eq_of_getLsbD_eq fun i hi => ?_
  have inByte : n + i < 8 := by omega
  simp [← h, BitVec.getLsbD_extractLsb', inByte, Nat.add_assoc]

/-! The words with more than one field (R181). -/

/-- The index of the action found, or all ones. -/
def matchedHalf (matched : Option Nat) : Half :=
  match matched with
  | some n => BitVec.ofNat 16 n
  | none => 0xFFFF#16

variable (m : Summary)

theorem summaryWord_2 : (summaryWords m).getD 2 0 = BitVec.ofNat 16 m.onset.position ++ m.onset.refAge := rfl

theorem summaryWord_4 : (summaryWords m).getD 4 0 = BitVec.ofNat 16 m.endPosition ++ 0#16 := rfl

theorem summaryWord_7 : (summaryWords m).getD 7 0 = BitVec.ofNat 16 m.lowest ++ matchedHalf m.classed.matched := rfl

theorem summaryWord_8 : (summaryWords m).getD 8 0 =
    BitVec.ofNat 16 m.classed.rMin.a ++ BitVec.ofNat 16 m.classed.rMin.b := rfl

theorem summaryWord_9 : (summaryWords m).getD 9 0 = BitVec.ofNat 16 m.classed.rMin.c ++ 0#16 := rfl

theorem summaryWord_10 : (summaryWords m).getD 10 0 =
    (m.classed.eventClass.code.setWidth 8 : Byte) ++ BitVec.ofNat 8 m.classed.coincidence ++
      (m.classed.mask.bits.setWidth 8 : Byte) ++ methodCode m.method := rfl

theorem summaryWord_11 : (summaryWords m).getD 11 0 =
    (m.cause.code.setWidth 8 : Byte) ++ summaryFlags m ++ BitVec.ofNat 8 m.cycles ++ 0#8 := rfl

/-- Word 10: class, coincidence count, phase mask and method (R181). -/
theorem summaryWord_10_fields :
    let w := (summaryWords m).getD 10 0
    w.extractLsb' 24 8 = m.classed.eventClass.code.setWidth 8 ∧
    w.extractLsb' 16 8 = BitVec.ofNat 8 m.classed.coincidence ∧ w.getLsbD 8 = m.classed.mask.a ∧
    w.getLsbD 9 = m.classed.mask.b ∧ w.getLsbD 10 = m.classed.mask.c ∧ w.extractLsb' 11 5 = 0 ∧
    w.extractLsb' 0 8 = methodCode m.method := by
  dsimp only
  rw [summaryWord_10]
  obtain ⟨cls, coincidence, mask, method⟩ := bytes_of_append (m.classed.eventClass.code.setWidth 8)
    (BitVec.ofNat 8 m.classed.coincidence) (m.classed.mask.bits.setWidth 8) (methodCode m.method)
  obtain ⟨a, b, c, zero⟩ := bits_of_mask m.classed.mask
  exact ⟨cls, coincidence, (getLsbD_of_byte (n := 0) mask (by decide)).trans a,
    (getLsbD_of_byte (n := 1) mask (by decide)).trans b, (getLsbD_of_byte (n := 2) mask (by decide)).trans c,
    (extractLsb'_of_byte (n := 3) mask (by decide)).trans zero, method⟩

/-- Word 11: end cause, flags and record cycles (R181). -/
theorem summaryWord_11_fields :
    let w := (summaryWords m).getD 11 0
    w.extractLsb' 24 8 = m.cause.code.setWidth 8 ∧ w.getLsbD 16 = m.truncated ∧ w.getLsbD 17 = m.limited ∧
    w.getLsbD 18 = m.classed.stale ∧ w.getLsbD 19 = m.resag ∧ w.getLsbD 20 = m.test ∧ w.getLsbD 21 = m.delayed ∧
    w.extractLsb' 22 2 = 0 ∧ w.extractLsb' 8 8 = BitVec.ofNat 8 m.cycles ∧ w.extractLsb' 0 8 = 0 := by
  dsimp only
  rw [summaryWord_11]
  obtain ⟨cause, flags, cycles, zero⟩ := bytes_of_append (m.cause.code.setWidth 8) (summaryFlags m)
    (BitVec.ofNat 8 m.cycles) 0#8
  obtain ⟨truncated, limited, stale, resag, test, delayed, none⟩ := bits_of_flags m
  exact ⟨cause, (getLsbD_of_byte (n := 0) flags (by decide)).trans truncated,
    (getLsbD_of_byte (n := 1) flags (by decide)).trans limited,
    (getLsbD_of_byte (n := 2) flags (by decide)).trans stale, (getLsbD_of_byte (n := 3) flags (by decide)).trans resag,
    (getLsbD_of_byte (n := 4) flags (by decide)).trans test,
    (getLsbD_of_byte (n := 5) flags (by decide)).trans delayed,
    (extractLsb'_of_byte (n := 6) flags (by decide)).trans none, cycles, zero⟩

end Sys2Proof.Machine
end

section
/-! The completion of a capture, the opening behind it, and the summary (R139, R140, R142 to R144, R150, R151, R159,
R181; log 25). -/

namespace Sys2Proof.Machine

variable {s : State} {l : Layout} {c : Capture} {q : Queued}

/-- The opening made at a completion leaves the words of the record filed before it. -/
theorem recordWord_of_filed_opened (canonical : MemoryCanonical s) (history : s.cst.history.length = 128) (m : Summary)
    {n : Nat} (hn : n < 16) (making : Making) (tail : Option Nat) (delayed test : Bool) :
    recordWord (openSlot l making tail delayed test (fileRecord l m s.cst)) l s.cst.fill n =
      (summaryWords m).getD n 0 := by
  have slots : 0 < l.slots := by cases l <;> decide
  have filed : recordWord (fileRecord l m s.cst) l s.cst.fill n = (summaryWords m).getD n 0 :=
    recordWord_of_filed canonical rfl hn
  obtain ⟨-, -, fill, -, -, -, -, kept⟩ := fileRecord_fields l m s.cst
  rw [← filed]
  exact recordWord_openSlot_other (by rw [fill]; exact Nat.mod_lt _ slots) (by rw [kept, history])
    (by rw [fill]; exact next_slot_ne l _) hn making tail delayed test

/-- A completion with an opening queued behind it: the record filed, then the opening by whether there is room for it
and whether it goes on. -/
theorem captureCompletion_of_queued (hl : s.cst.layout = some l) (hf : s.cst.filling = some c)
    (hd : captureDue s = true) (hq : s.cst.queued = some q) {m : Summary} (hm : completedSummary s c = m) :
    let u := completeDue s
    u = { s with cst := u.cst } ∧ u.cst.oldest = s.cst.oldest ∧
      u.cst.queued = none ∧ u.cst.layout = s.cst.layout ∧ u.cst.history = s.cst.history ∧
      (MemoryCanonical s → s.cst.history.length = 128 → ∀ n : Fin 16, recordWord u.cst l s.cst.fill n =
        (summaryWords m).getD n 0) ∧
      (l.slots ≤ s.cst.full + 1 → u.cst.filling = none ∧ u.cst.missed = satInc s.cst.missed ∧
        u.cst.full = s.cst.full + 1 ∧ u.cst.fill = (s.cst.fill + 1) % l.slots) ∧
      (s.cst.full + 1 < l.slots → q.making.ended = none ∨ 0 < s.settings.postTail →
        u.cst.filling = some q.opened ∧ u.cst.missed = s.cst.missed ∧
        u.cst.full = s.cst.full + 1 ∧ u.cst.fill = (s.cst.fill + 1) % l.slots) ∧
      (s.cst.full + 1 < l.slots → q.making.ended ≠ none → s.settings.postTail = 0 →
        u.cst.filling = none ∧ u.cst.missed = s.cst.missed ∧
        u.cst.full = s.cst.full + 2 ∧ u.cst.fill = (s.cst.fill + 2) % l.slots) := by
  intro u
  obtain ⟨layout, oldest, fill, full, filling, queued, missed, history⟩ := fileRecord_fields l m s.cst
  rcases Nat.lt_or_ge (s.cst.full + 1) l.slots with room | noRoom
  · have notFull : ¬ l.slots ≤ s.cst.full + 1 := Nat.not_le.mpr room
    obtain ⟨layout', oldest', fill', full', queued', missed', history', filling'⟩ :=
      openSlot_fields l q.making q.tail (!q.atOnset) false (fileRecord l m s.cst)
    have words : MemoryCanonical s → s.cst.history.length = 128 → ∀ n : Fin 16, recordWord
        (openSlot l q.making q.tail (!q.atOnset) false (fileRecord l m s.cst)) l s.cst.fill n =
          (summaryWords m).getD n 0 :=
      fun canonical length n => recordWord_of_filed_opened canonical length m n.isLt _ _ _ _
    by_cases atOnce : q.making.ended ≠ none ∧ s.settings.postTail = 0
    · obtain ⟨ended, noTail⟩ := atOnce
      have hu : u = _ := completeDue_of_queued_filed hl hf hq hd room ended noTail
      rw [hm] at hu
      generalize completedSummary (complete s) q.opened = m' at hu
      rw [hu]
      obtain ⟨layout'', oldest'', fill'', full'', filling'', queued'', missed'', history''⟩ :=
        fileRecord_fields l m' (openSlot l q.making q.tail (!q.atOnset) false (fileRecord l m s.cst))
      have other : (openSlot l q.making q.tail (!q.atOnset) false (fileRecord l m s.cst)).fill ≠ s.cst.fill := by
        rw [fill', fill]
        exact next_slot_ne l _
      refine ⟨rfl, oldest''.trans (oldest'.trans oldest), queued'', layout''.trans (layout'.trans layout),
        history''.trans (history'.trans history), fun canonical length n => ?_, fun h => absurd h notFull,
        fun _ goesOn => ?_, fun _ _ _ => ⟨filling'', missed''.trans (missed'.trans missed), ?_, ?_⟩⟩
      · exact (recordWord_fileRecord_other other n.isLt m').trans (words canonical length n)
      · exact absurd goesOn (by simp [ended, noTail])
      · rw [full'', full', full]
      · rw [fill'', fill', fill, Nat.mod_add_mod]
    · have goesOn : q.making.ended = none ∨ 0 < s.settings.postTail := by
        rcases Nat.eq_zero_or_pos s.settings.postTail with h | h
        · exact .inl (not_not.mp fun ended => atOnce ⟨ended, h⟩)
        · exact .inr h
      have hu : u = _ := completeDue_of_queued_opened hl hf hq hd room goesOn
      rw [hm] at hu
      rw [hu]
      exact ⟨rfl, oldest'.trans oldest, queued'.trans queued, layout'.trans layout, history'.trans history, words,
        fun h => absurd h notFull,
        fun _ _ => ⟨filling', missed'.trans missed, full'.trans full, fill'.trans fill⟩,
        fun _ ended noTail => absurd ⟨ended, noTail⟩ atOnce⟩
  · have hu : u = _ := completeDue_of_queued_missed hl hf hq hd noRoom
    rw [hm] at hu
    rw [hu]
    obtain ⟨mem', layout', oldest', fill', full', filling', queued', missed', history'⟩ :=
      missCapture_fields (fileRecord l m s.cst)
    refine ⟨rfl, oldest'.trans oldest, queued'.trans queued, layout'.trans layout, history'.trans history,
      fun canonical _ n => recordWord_of_filed canonical mem' n.isLt,
      fun _ => ⟨filling'.trans filling, missed'.trans (by rw [missed]), full'.trans full, fill'.trans fill⟩,
      fun h => absurd h (Nat.not_lt.mpr noRoom), fun h => absurd h (Nat.not_lt.mpr noRoom)⟩

/-- Settles O41: the record filed alone, then the opening behind it, then what is due and the fields of a summary. -/
theorem captureCompletionFilesRecord : Obligations.CaptureCompletionFilesRecord := by
  unfold Obligations.CaptureCompletionFilesRecord
  refine ⟨?lone, ?queued, captureDue_iff, fun s c e he => ?_, fun s c cut => rfl, ?words, rfl, fun s h => ?_⟩
  case lone =>
    intro s l c hl hf hd hq canonical
    refine ⟨completeDue s, rfl, ?_⟩
    rw [completeDue_eq_of_lone hl hf hq hd]
    unfold completedSummary
    generalize (if c.test = true then testSummary s c false else eventSummary s c) = m
    obtain ⟨-, oldest, fill, full, filling, -, missed, -⟩ := fileRecord_fields l m s.cst
    exact ⟨full, fill, filling, oldest, missed, fun n => recordWord_of_filed canonical rfl n.isLt,
      fun a ha => read_fileRecord_outside l m s.cst ha, rfl⟩
  case queued =>
    intro s l c q hl hf hd hq opened
    exact ⟨completeDue s, exec_captureCompletion s, captureCompletion_of_queued hl hf hd hq rfl⟩
  · simp [eventSummary, he, classFields]
  case words =>
    intro m w half byte
    obtain ⟨cls, coincidence, maskA, maskB, maskC, maskZero, method⟩ := summaryWord_10_fields m
    obtain ⟨cause, truncated, limited, stale, resag, test, delayed, flagsZero, cycles, zero⟩ :=
      summaryWord_11_fields m
    simp only [half, w, summaryWord_2, summaryWord_4, summaryWord_7, summaryWord_8, summaryWord_9, halves_of_append,
      true_and]
    refine ⟨rfl, rfl, rfl, rfl, rfl, rfl, rfl, fun h => by rw [h]; rfl, fun n h => by rw [h]; rfl, rfl, cls.trans ?_,
      coincidence, maskA, maskB, maskC, maskZero, method.trans ?_, cause, truncated, limited, stale, resag, test,
      delayed, flagsZero, cycles, zero, rfl, rfl, rfl, rfl⟩
    · cases m.classed.eventClass <;> rfl
    · rfl
  · rw [exec_captureCompletion, completeDue_of_not_due h]

end Sys2Proof.Machine
end

section
/-! SUPPORT. Which request stands at a frame end, what RQH follows of a slot, and the executions of the requests
(R154, R156 to R158; log 9). -/

namespace Sys2Proof.Machine

variable {s : State} {g : Nat} {f : BitVec 48}

/-! The standing request (R157, R158). -/

theorem knownGateway_iff : knownGateway s g = true ↔ ∃ w, (peerEntry s g).slow = some w ∧ w.kind = 1 := by
  unfold knownGateway
  cases (peerEntry s g).slow <;> simp

/-- The conditions of R157 one by one. -/
theorem executable_iff : executable s g = some f ↔
    (followOf s g).previous = some f ∧ (followOf s g).confirmed = true ∧ (followOf s g).baseline = none ∧
    (followOf s g).baselinePending = false ∧ (followOf s g).lastTag ≠ some (requestTag f) ∧ requestCode f ≠ 0 ∧
    ownSlot s = some (requestTarget f) ∧ ∃ w, (peerEntry s g).slow = some w ∧ w.kind = 1 := by
  unfold executable
  rw [← knownGateway_iff]
  constructor
  · intro h
    split at h
    · rename_i p previous
      split at h
      · rename_i conditions
        obtain ⟨own, gateway, confirmed, baseline, pending, code, tag⟩ := conditions
        obtain rfl : p = f := Option.some.inj h
        exact ⟨previous, confirmed, baseline, pending, tag, code, own, gateway⟩
      · exact absurd h (by simp)
    · exact absurd h (by simp)
  · rintro ⟨previous, confirmed, baseline, pending, tag, code, own, gateway⟩
    simp only [previous]
    exact if_pos ⟨own, gateway, confirmed, baseline, pending, code, tag⟩

/-- A search of the numbers below n finds what the lowest one that has something has. -/
theorem findSome?_range_eq_some {α : Type} {p : Nat → Option α} {n : Nat} {a : α} :
    (List.range n).findSome? p = some a ↔ ∃ i, i < n ∧ p i = some a ∧ ∀ j, j < i → p j = none := by
  induction n with
  | zero => simp
  | succ n ih =>
    rw [List.range_succ, List.findSome?_append, List.findSome?_singleton, Option.or_eq_some_iff, ih]
    constructor
    · rintro (⟨i, below, found, first⟩ | ⟨nothing, found⟩)
      · exact ⟨i, Nat.lt_succ_of_lt below, found, first⟩
      · exact ⟨n, Nat.lt_succ_self n, found, by simpa using nothing⟩
    · rintro ⟨i, below, found, first⟩
      rcases Nat.lt_succ_iff_lt_or_eq.mp below with lower | rfl
      · exact .inl ⟨i, lower, found, first⟩
      · exact .inr ⟨by simpa using first, found⟩

/-- The executable request of the lowest slot stands, while no execution has been (R158). -/
theorem standing_iff : standing s = some (g, f) ↔
    s.rqh.execOpen = true ∧ g < 12 ∧ executable s g = some f ∧ ∀ j, j < g → executable s j = none := by
  unfold standing
  cases s.rqh.execOpen with
  | false => simp
  | true =>
    simp only [if_true, true_and, findSome?_range_eq_some, Option.map_eq_none_iff, Option.map_eq_some_iff,
      Prod.mk.injEq]
    constructor
    · rintro ⟨i, below, ⟨f', found, rfl, rfl⟩, first⟩
      exact ⟨below, found, first⟩
    · rintro ⟨below, found, first⟩
      exact ⟨g, below, ⟨f, found, rfl, rfl⟩, first⟩

theorem stands_iff {tag code : BitVec 4} {arg : Option Word} : stands g tag code arg s = true ↔
    ∃ f, standing s = some (g, f) ∧ requestTag f = tag ∧ requestCode f = code ∧
      ∀ a, arg = some a → requestArg f = a := by
  unfold stands
  cases standing s with
  | none => simp
  | some x =>
    obtain ⟨j, f⟩ := x
    cases arg with
    | none =>
      simp only [Bool.and_true, Bool.and_eq_true, beq_iff_eq, Option.some.injEq, Prod.mk.injEq, reduceCtorEq,
        false_imp_iff, implies_true, and_true]
      exact ⟨fun ⟨⟨slot, tag⟩, code⟩ => ⟨f, ⟨slot, rfl⟩, tag, code⟩,
        fun ⟨_, ⟨slot, same⟩, tag, code⟩ => same ▸ ⟨⟨slot, tag⟩, code⟩⟩
    | some a =>
      simp only [Bool.and_eq_true, beq_iff_eq, Option.some.injEq, Prod.mk.injEq, forall_eq']
      exact ⟨fun ⟨⟨⟨slot, tag⟩, code⟩, argument⟩ => ⟨f, ⟨slot, rfl⟩, tag, code, argument⟩,
        fun ⟨_, ⟨slot, same⟩, tag, code, argument⟩ => same ▸ ⟨⟨⟨slot, tag⟩, code⟩, argument⟩⟩

/-- An answer uses the frame end's one execution (R158). -/
theorem standing_answer (g : Nat) (tag : BitVec 4) (status : Status) (data : Word) (s : State) :
    standing (answer g tag status data s) = none := by
  simp [standing, answer_rqh]

/-! Following (R156). -/

variable {j : Nat}

theorem followSlot_of_own (x : Follow) (h : ownSlot s = some j) : followSlot s j x = x := if_pos h

theorem followSlot_of_live (x : Follow) (h : ownSlot s ≠ some j) (hl : (peerEntry s j).state = .live) :
    followSlot s j x = x.heard (peerEntry s j).fast.request := by
  simp [followSlot, h, hl]

theorem followSlot_of_held (x : Follow) (h : ownSlot s ≠ some j) (hl : (peerEntry s j).state = .held) :
    followSlot s j x = x := by
  simp [followSlot, h, hl]

theorem followSlot_of_absent (x : Follow) (h : ownSlot s ≠ some j) (hl : (peerEntry s j).state = .absent) :
    followSlot s j x = x.dropped := by
  simp [followSlot, h, hl]

theorem follow_slot {x y : Follow} (hx : s.rqh.slots[j]? = some x) (hy : followSlot s j x = y) :
    (follow s).rqh.slots[j]? = some y := by
  simp [follow, hx, hy]

theorem heard_baseline_of_pending (f : BitVec 48) {x : Follow} (h : x.baselinePending = true) :
    (x.heard f).baseline = some f := by
  simp [Follow.heard, h]

theorem heard_baseline_of_same {x : Follow} (h : x.baseline = some f) : (x.heard f).baseline = some f := by
  simp [Follow.heard, h]

theorem heard_baseline_of_other {x : Follow} (hp : x.baselinePending = false) (h : x.baseline ≠ some f) :
    (x.heard f).baseline = none := by
  simp [Follow.heard, hp, h]

/-! The read requests and a request of no code: the execution when the request stands, nothing when it does not
(log 9). -/

theorem exec_readItem (g : Nat) (tag : BitVec 4) (item : Word) (s : State) :
    exec (.readItem g tag item) s = .next (if stands g tag 1 (some item) s then readItem g tag item s else s) := rfl

theorem exec_readRecord (g : Nat) (tag : BitVec 4) (slot word : Half) (s : State) :
    exec (.readRecord g tag slot word) s =
      .next (if stands g tag 2 (some (slot ++ word)) s then readRecord g tag slot word s else s) := rfl

theorem exec_readPeer (g : Nat) (tag : BitVec 4) (slot field : Half) (s : State) :
    exec (.readPeer g tag slot field) s =
      .next (if stands g tag 3 (some (slot ++ field)) s then readPeer g tag slot field s else s) := rfl

theorem exec_badCodeRequest (g : Nat) (tag code : BitVec 4) (s : State) :
    exec (.badCodeRequest g tag code) s =
      .next (if 8 ≤ code.toNat ∧ stands g tag code none s = true then badCode g tag s else s) := rfl

/-! The execution within a frame end (R158). -/

theorem executeStanding_of_none (h : standing s = none) : executeStanding s = s := by
  simp [executeStanding, h]

theorem executeStanding_of_badCode (h : standing s = some (g, f)) (hc : 8 ≤ (requestCode f).toNat) :
    executeStanding s = badCode g (requestTag f) s := by
  simp only [executeStanding, h]
  split
  case h_8 => rfl
  all_goals omega

/-- A standing request's command, which executes where the frame end does. -/
theorem exec_eq_executeStanding {c : Instr} {u : State} {p : Prop} [Decidable p]
    (hx : exec c s = .next (if p then u else s)) (hp : p) (hu : executeStanding s = u) :
    exec c s = .next (executeStanding s) := by
  rw [hx, if_pos hp, hu]

/-- An argument is its two halves (R154). -/
theorem halves_append (w : Word) : w.extractLsb' 16 16 ++ w.extractLsb' 0 16 = w :=
  BitVec.extractLsb'_append_extractLsb' (w := 16) (len := 16)

end Sys2Proof.Machine
end

section
/-! The standing request, the following, and the execution in a frame end (R154, R156 to R158, R180; log 9). -/

namespace Sys2Proof.Machine

/-- Settles O53: the conditions one by one, the search of the lowest slot, the following by the entry's state, and each
code's execution as that of its command. -/
theorem standingRequest : Obligations.StandingRequest := by
  unfold Obligations.StandingRequest
  refine ⟨fun f => ⟨rfl, rfl, rfl, rfl⟩, fun s j => ⟨rfl, rfl⟩, fun s g f => executable_iff, fun s g f => standing_iff,
    fun s g tag code arg => stands_iff, standing_answer, fun f x => ?heard, fun s => ⟨rfl, ?length, ?follow⟩,
    fun s => executeStanding_of_none, fun s g f h => ?execution⟩
  case heard =>
    exact ⟨rfl, beq_iff_eq, fun pending => ⟨heard_baseline_of_pending f pending, rfl⟩,
      fun _ same => heard_baseline_of_same same, fun past other => heard_baseline_of_other past other, rfl, rfl⟩
  case length => exact List.length_mapIdx
  case follow =>
    intro j x hx
    exact ⟨fun own => follow_slot hx (followSlot_of_own x own),
      fun other live => follow_slot hx (followSlot_of_live x other live),
      fun other held => follow_slot hx (followSlot_of_held x other held),
      fun other absent => follow_slot hx (followSlot_of_absent x other absent)⟩
  case execution =>
    intro tag arg executes
    have standsWith : ∀ {code : BitVec 4} {a : Word}, requestCode f = code → arg = a →
        stands g tag code (some a) s = true := fun hc ha =>
      stands_iff.mpr ⟨f, h, rfl, hc, fun _ e => ha.trans (Option.some.inj e)⟩
    have standsBare : ∀ {code : BitVec 4}, requestCode f = code → stands g tag code none s = true := fun hc =>
      stands_iff.mpr ⟨f, h, rfl, hc, fun _ e => absurd e (by simp)⟩
    have halves : arg = arg.extractLsb' 16 16 ++ arg.extractLsb' 0 16 := (halves_append arg).symm
    refine ⟨fun hc => exec_eq_executeStanding (exec_readItem ..) (standsWith hc rfl) ?_,
      fun hc => exec_eq_executeStanding (exec_readRecord ..) (standsWith hc halves) ?_,
      fun hc => exec_eq_executeStanding (exec_readPeer ..) (standsWith hc halves) ?_,
      fun hc => exec_eq_executeStanding (exec_freeRecords ..) (standsWith hc rfl) ?_,
      fun hc => exec_eq_executeStanding (exec_clearLockout ..) (standsBare hc) ?_,
      fun hc => exec_eq_executeStanding (exec_testCapture ..) (standsBare hc) ?_,
      fun hc => exec_eq_executeStanding (exec_softReset ..) (standsBare hc) ?_,
      fun hc => exec_eq_executeStanding (exec_badCodeRequest ..) ⟨hc, standsBare rfl⟩ (executeStanding_of_badCode h hc)⟩
    all_goals simp [executeStanding, h, hc, tag, arg]

end Sys2Proof.Machine
end

section
/-! The read requests and a request of no code (R158 to R161; log 9). -/

namespace Sys2Proof.Machine

/-- Settles O54: each command is one answer on the state as it stands, or nothing. -/
theorem readRequestsAnswered : Obligations.ReadRequestsAnswered := by
  unfold Obligations.ReadRequestsAnswered
  intro g tag s replied
  refine ⟨fun item h => ?item, fun slot word h => ?_, fun slot field h => ?_, fun code no h => ?_, fun item h => ?_,
    fun slot word h => ?_, fun slot field h => ?_, fun code h => ?notBad⟩
  case item =>
    rw [exec_readItem, if_pos h, readItem]
    cases itemWord s item <;> rfl
  · rw [exec_readRecord, if_pos h]
    rfl
  · rw [exec_readPeer, if_pos h]
    rfl
  · rw [exec_badCodeRequest, if_pos ⟨no, h⟩]
    rfl
  · rw [exec_readItem, if_neg (Bool.eq_false_iff.mp h)]
  · rw [exec_readRecord, if_neg (Bool.eq_false_iff.mp h)]
  · rw [exec_readPeer, if_neg (Bool.eq_false_iff.mp h)]
  case notBad =>
    rw [exec_badCodeRequest, if_neg]
    rintro ⟨no, stood⟩
    rcases h with h | h
    · exact Bool.eq_false_iff.mp h stood
    · exact Nat.not_le.mpr h no

end Sys2Proof.Machine
end

section
/-! SUPPORT. The words that the read requests answer with: the fields of an item, READ_RECORD's checks, the record words
by the bytes of the capture memory, and the fields of a peer-table entry (R151, R159 to R161, R179, R181, R182). -/

namespace Sys2Proof.Machine

/-! READ_ITEM (R159). -/

/-- The line status of item 10, field by field. -/
theorem fields_of_lineStatus (membership : BitVec 2) (duplicate : BitVec 1) (zero : BitVec 5) (collisions : Byte)
    (misaligned : Half) :
    let w := membership ++ duplicate ++ zero ++ collisions ++ misaligned
    w.extractLsb' 30 2 = membership ∧ w.extractLsb' 29 1 = duplicate ∧ w.extractLsb' 24 5 = zero ∧
    w.extractLsb' 16 8 = collisions ∧ w.extractLsb' 0 16 = misaligned := by
  simp (disch := decide) only [BitVec.extractLsb'_append_eq_of_le, BitVec.extractLsb'_append_eq_of_add_le,
    Nat.reduceSub, BitVec.extractLsb'_eq_self, and_self]

/-- The configuration status of item 2, field by field (R182). -/
theorem fields_of_configStatus (source reason : BitVec 2) (badStrap clamped held zero : BitVec 1)
    (entries strap zeros : BitVec 4) (void : BitVec 12) :
    let w := source ++ reason ++ badStrap ++ clamped ++ held ++ zero ++ entries ++ strap ++ zeros ++ void
    w.extractLsb' 30 2 = source ∧ w.extractLsb' 28 2 = reason ∧ w.extractLsb' 27 1 = badStrap ∧
    w.extractLsb' 26 1 = clamped ∧ w.extractLsb' 25 1 = held ∧ w.extractLsb' 20 4 = entries ∧
    w.extractLsb' 16 4 = strap ∧ w.extractLsb' 0 12 = void := by
  simp (disch := decide) only [BitVec.extractLsb'_append_eq_of_le, BitVec.extractLsb'_append_eq_of_add_le,
    Nat.reduceSub, BitVec.extractLsb'_eq_self, and_self]

theorem itemWord_of_out_of_range (s : State) {item : Word} (h : 11 ≤ item.toNat) : itemWord s item = none := by
  unfold itemWord
  obtain ⟨n, hn⟩ := Nat.exists_eq_add_of_le' h
  rw [hn]
  rfl

/-! READ_RECORD (R160). -/

section Record

variable {c : Cst} {l : Layout} {slot word : Nat}

theorem recordReply_of_no_layout (hl : c.layout = none) : recordReply c slot word = (.refused, 0) := by
  simp [recordReply, hl]

theorem recordReply_of_bad_slot (hl : c.layout = some l) (h : l.slots ≤ slot) :
    recordReply c slot word = (.badArg, 0) := by
  simp [recordReply, hl, h]

theorem recordReply_of_bad_word (hl : c.layout = some l) (h : slot < l.slots) (hw : 15 + 3 * l.sets < word) :
    recordReply c slot word = (.badArg, 0) := by
  simp [recordReply, hl, Nat.not_le.mpr h, hw]

theorem recordReply_of_legal (hl : c.layout = some l) (h : slot < l.slots) (hw : word ≤ 15 + 3 * l.sets) :
    recordReply c slot word =
      if slotState c l slot = .free then (.refused, 0) else (.ok, recordWord c l slot word) := by
  simp [recordReply, hl, Nat.not_le.mpr h, Nat.not_lt.mpr hw]

theorem slotState_eq (c : Cst) (l : Layout) (n : Nat) : slotState c l n =
    if (n + l.slots - c.oldest) % l.slots < c.full then .full
    else if n = c.fill ∧ c.filling ≠ none then .filling
    else .free := by
  simp only [slotState, Option.isSome_iff_ne_none]

end Record

/-! Record words (R151, R181). -/

theorem readWord_eq_halves (m : List Host.Cell) (a : Nat) : Memory.readWord m a =
    (Memory.read m a ++ Memory.read m (a + 1)) ++ (Memory.read m (a + 2) ++ Memory.read m (a + 3)) := rfl

/-- Four bytes in a row, most significant first (R179). -/
theorem readWord_eq_bytes (m : List Host.Cell) (a : Nat) : Memory.readWord m a =
    Memory.read m a ++ Memory.read m (a + 1) ++ Memory.read m (a + 2) ++ Memory.read m (a + 3) := by
  rw [readWord_eq_halves]
  exact (BitVec.append_assoc.trans (BitVec.cast_eq rfl _)).symm

/-- A half is its two bytes (R179). -/
theorem bytes_append (x : Half) : x.extractLsb' 8 8 ++ x.extractLsb' 0 8 = x :=
  BitVec.extractLsb'_append_extractLsb' (w := 8) (len := 8)

/-- Where the bytes of two halves are read, the word is the two. -/
theorem readWord_of_halves {m : List Host.Cell} {a : Nat} {x y : Half}
    (h : ∀ n : Fin 4, Memory.read m (a + n) = (halfBytes x ++ halfBytes y).getD n 0) :
    Memory.readWord m a = x ++ y := by
  have first : Memory.read m a = x.extractLsb' 8 8 := h 0
  have second : Memory.read m (a + 1) = x.extractLsb' 0 8 := h 1
  have third : Memory.read m (a + 2) = y.extractLsb' 8 8 := h 2
  have fourth : Memory.read m (a + 3) = y.extractLsb' 0 8 := h 3
  rw [readWord_eq_halves, first, second, third, fourth, bytes_append, bytes_append]

/-- Three words a set, behind the sixteen of the summary (R151). -/
theorem recordWord_of_set (c : Cst) (l : Layout) (slot q k : Nat) :
    recordWord c l slot (16 + 3 * q + k) = Memory.readWord c.mem (setAddr l slot q + 4 * k) := by
  have address : setAddr l slot 0 + 4 * (16 + 3 * q + k - 16) = setAddr l slot q + 4 * k := by
    have moved := setAddr_add l slot 0 q
    rw [Nat.zero_add] at moved
    omega
  rw [recordWord, if_neg (by omega), address]

/-- The words of a set whose bytes are read at its position: two channels each. -/
theorem recordWord_of_setBytes {c : Cst} {l : Layout} {slot q : Nat} {x : CapturedSet}
    (h : ∀ n : Fin 12, Memory.read c.mem (setAddr l slot q + n) = (setBytes x).getD n 0) {k : Nat} (hk : k < 3)
    {y z : Half} (hyz : ((setBytes x).drop (4 * k)).take 4 = halfBytes y ++ halfBytes z) :
    recordWord c l slot (16 + 3 * q + k) = y ++ z := by
  rw [recordWord_of_set]
  refine readWord_of_halves fun n => ?_
  have read := h ⟨4 * k + n, by omega⟩
  rw [Nat.add_assoc, read, ← hyz]
  simp [List.getD_eq_getElem?_getD]

/-! READ_PEER (R161). -/

theorem peerWord_of_out_of_range (e : PeerEntry) {field : Nat} (h : 28 ≤ field) : peerWord e field = none := by
  obtain ⟨n, rfl⟩ := Nat.exists_eq_add_of_le' h
  rfl

theorem peerReply_of_bad_slot (s : State) {slot : Nat} (field : Nat) (h : 12 ≤ slot) :
    peerReply s slot field = (.badArg, 0) := if_pos h

theorem peerReply_of_none {s : State} {slot field : Nat} (h : slot < 12)
    (hf : peerWord (peerEntry s slot) field = none) : peerReply s slot field = (.badArg, 0) := by
  simp [peerReply, Nat.not_le.mpr h, hf]

theorem peerReply_of_some {s : State} {slot field : Nat} {d : Word} (h : slot < 12)
    (hf : peerWord (peerEntry s slot) field = some d) : peerReply s slot field = (.ok, d) := by
  simp [peerReply, Nat.not_le.mpr h, hf]

/-- A flag as a number. -/
def flagValue (b : Bool) : Nat := if b = true then 1 else 0

/-- A phase mask as a number: phase A counts 1, B 2 and C 4. -/
def maskValue (m : Phases Bool) : Nat :=
  (if m.a = true then 1 else 0) + (if m.b = true then 2 else 0) + (if m.c = true then 4 else 0)

theorem toNat_flagWord (b : Bool) : (flagWord b).toNat = flagValue b := by
  cases b <;> rfl

theorem toNat_maskWord (m : Phases Bool) : (maskWord m).toNat = maskValue m := by
  obtain ⟨a, b, c⟩ := m
  revert a b c
  decide

theorem slowWord_of_unknown {w : Nat} {e : PeerEntry} (h : e.slow = none) (field : Slow → BitVec w) :
    slowWord e field = 0 := by
  simp [slowWord, h]

theorem slowWord_of_known {w : Nat} {e : PeerEntry} {x : Slow} (h : e.slow = some x) (field : Slow → BitVec w) :
    slowWord e field = (field x).setWidth 32 := by
  simp [slowWord, h]

/-- READ_PEER of a field is answered with OK and a data word of this value. -/
def PeerReads (s : State) (slot field value : Nat) : Prop :=
  ∃ d, peerReply s slot field = (.ok, d) ∧ d.toNat = value

namespace PeerReads

variable {s : State} {slot field : Nat}

theorem of_word {d : Word} {value : Nat} (h : slot < 12) (hf : peerWord (peerEntry s slot) field = some d)
    (hv : d.toNat = value) : PeerReads s slot field value :=
  ⟨d, peerReply_of_some h hf, hv⟩

/-- A narrower field reads as its own value. -/
theorem of_bits {w : Nat} {x : BitVec w} (h : slot < 12)
    (hf : peerWord (peerEntry s slot) field = some (x.setWidth 32)) (hw : w ≤ 32 := by decide) :
    PeerReads s slot field x.toNat :=
  of_word h hf (BitVec.toNat_setWidth_of_le hw)

theorem of_flag {b : Bool} (h : slot < 12) (hf : peerWord (peerEntry s slot) field = some (flagWord b)) :
    PeerReads s slot field (flagValue b) :=
  of_word h hf (toNat_flagWord b)

theorem of_mask {m : Phases Bool} (h : slot < 12) (hf : peerWord (peerEntry s slot) field = some (maskWord m)) :
    PeerReads s slot field (maskValue m) :=
  of_word h hf (toNat_maskWord m)

theorem of_unknown {w : Nat} {x : Slow → BitVec w} (h : slot < 12)
    (hf : peerWord (peerEntry s slot) field = some (slowWord (peerEntry s slot) x))
    (hs : (peerEntry s slot).slow = none) : PeerReads s slot field 0 :=
  of_word h hf (by rw [slowWord_of_unknown hs]; rfl)

theorem of_known {w : Nat} {x : Slow → BitVec w} {y : Slow} (h : slot < 12)
    (hf : peerWord (peerEntry s slot) field = some (slowWord (peerEntry s slot) x))
    (hs : (peerEntry s slot).slow = some y) (hw : w ≤ 32 := by decide) : PeerReads s slot field (x y).toNat :=
  of_bits h (hf.trans (by rw [slowWord_of_known hs])) hw

end PeerReads

theorem toNat_code_entryState (e : EntryState) :
    (e.code).toNat = match e with | .absent => 0 | .live => 1 | .held => 2 := by
  cases e <;> rfl

/-- The upper two bytes of a request/reply field. -/
theorem toNat_request_high (f : BitVec 48) : (f.extractLsb' 32 16).toNat = f.toNat / 2 ^ 32 := by
  have := f.isLt
  rw [BitVec.extractLsb'_toNat, Nat.shiftRight_eq_div_pow]
  omega

/-- The lower four bytes of a request/reply field. -/
theorem toNat_request_low (f : BitVec 48) : (f.extractLsb' 0 32).toNat = f.toNat % 2 ^ 32 := by
  rw [BitVec.extractLsb'_toNat, Nat.shiftRight_zero]

end Sys2Proof.Machine
end

section
/-! The replies to READ_ITEM, READ_RECORD and READ_PEER (R15, R56, R135, R136, R151, R159 to R161, R181, R182;
log 22, 23). -/

namespace Sys2Proof.Machine

/-- Settles O55: the items' words, the record's checks and words, and the entry's fields. -/
theorem readReplies : Obligations.ReadReplies := by
  unfold Obligations.ReadReplies
  refine ⟨fun s => ?items, fun c slot word => ?checks, fun c l slot w hw => ?summary, fun c l slot q x h => ?sets,
    slotState_eq, fun l slot q => ?addresses, rfl, rfl, rfl, fun l => rfl, rfl, rfl, rfl, rfl,
    fun s slot field h => ?badPeer, fun s slot h => ?peer⟩
  case items =>
    exact ⟨rfl, rfl, rfl, rfl, ⟨_, rfl, halves_of_append _ _⟩, rfl, rfl, rfl, ⟨_, rfl, halves_of_append _ _⟩,
      ⟨_, rfl, fields_of_lineStatus _ _ _ _ _⟩, ⟨_, rfl, fields_of_configStatus _ _ _ _ _ _ _ _ _ _⟩,
      fun item => itemWord_of_out_of_range s⟩
  case checks =>
    have last : ∀ l : Layout, 15 + 3 * 128 * l.cycles = 15 + 3 * l.sets := fun l => by
      rw [Layout.sets, Nat.mul_assoc]
    refine ⟨recordReply_of_no_layout, fun l => recordReply_of_bad_slot,
      fun l hl hs hw => recordReply_of_bad_word hl hs (last l ▸ hw), fun l hl hs hw free => ?_,
      fun l hl hs hw kept => ?_⟩
    · rw [recordReply_of_legal hl hs (last l ▸ hw), if_pos free]
    · rw [recordReply_of_legal hl hs (last l ▸ hw), if_neg kept]
  case summary =>
    rw [recordWord, if_pos hw]
    exact readWord_eq_bytes c.mem _
  case sets =>
    exact ⟨recordWord_of_setBytes h (k := 0) (by decide) rfl, recordWord_of_setBytes h (k := 1) (by decide) rfl,
      recordWord_of_setBytes h (k := 2) (by decide) rfl⟩
  case addresses =>
    constructor
    · rw [setAddr, Layout.sets, Nat.mul_comm]
    · rw [summaryAddr, Config.summaryBase, Nat.mul_comm]
  case badPeer =>
    by_cases out : 12 ≤ slot
    · exact peerReply_of_bad_slot s field out
    · exact peerReply_of_none (Nat.not_le.mp out) (peerWord_of_out_of_range _ (h.resolve_left out))
  case peer =>
    intro e reads flag mask
    refine ⟨PeerReads.of_word h rfl ?state, fun below => PeerReads.of_word h rfl (Nat.mod_eq_of_lt below),
      PeerReads.of_flag h rfl, PeerReads.of_flag h rfl, fun unknown => ?unknown, fun w known => ?known,
      PeerReads.of_word h rfl rfl, PeerReads.of_bits h rfl, PeerReads.of_bits h rfl, PeerReads.of_flag h rfl,
      PeerReads.of_mask h rfl, PeerReads.of_mask h rfl, PeerReads.of_bits h rfl, PeerReads.of_bits h rfl,
      PeerReads.of_bits h rfl, PeerReads.of_bits h rfl, PeerReads.of_bits h rfl, PeerReads.of_bits h rfl,
      PeerReads.of_bits h rfl, PeerReads.of_bits h rfl, PeerReads.of_flag h rfl, PeerReads.of_flag h rfl,
      PeerReads.of_flag h rfl, PeerReads.of_word h rfl ?high, PeerReads.of_word h rfl (toNat_request_low _)⟩
    case state => exact (BitVec.toNat_setWidth_of_le (by decide)).trans (toNat_code_entryState e.state)
    case unknown =>
      exact ⟨PeerReads.of_unknown h rfl unknown, PeerReads.of_unknown h rfl unknown,
        PeerReads.of_unknown h rfl unknown, PeerReads.of_unknown h rfl unknown, PeerReads.of_unknown h rfl unknown⟩
    case known =>
      exact ⟨PeerReads.of_known h rfl known, PeerReads.of_known h rfl known, PeerReads.of_known h rfl known,
        PeerReads.of_known h rfl known, PeerReads.of_flag h (congrArg some (slowWord_of_known known _))⟩
    case high => exact (BitVec.toNat_setWidth_of_le (by decide)).trans (toNat_request_high _)

end Sys2Proof.Machine
end

section
/-! SUPPORT. The clamps of the settings: what a range clamp and a cross-field clamp leave, and which values they let
stand (R170, R171). -/

namespace Sys2Proof.Machine

/-! A value brought into its range (R170). -/

section

variable {lo hi x : Nat}

theorem Within.mono {hi' : Nat} (h : Within lo hi x) (le : hi ≤ hi') : Within lo hi' x := ⟨h.1, h.2.trans le⟩

theorem clampNat_within (h : lo ≤ hi) (x : Nat) : Within lo hi (clampNat lo hi x) :=
  ⟨Nat.le_max_left .., Nat.max_le.mpr ⟨h, Nat.min_le_right ..⟩⟩

theorem clampNat_of_within (h : Within lo hi x) : clampNat lo hi x = x := by
  obtain ⟨least, greatest⟩ := h
  rw [clampNat, Nat.min_eq_left greatest, Nat.max_eq_right least]

/-- A value within its range stands, and one beyond it takes the nearer end. -/
theorem clampNat_nearest (h : lo ≤ hi) (x : Nat) :
    (x < lo → clampNat lo hi x = lo) ∧ (lo ≤ x → x ≤ hi → clampNat lo hi x = x) ∧
    (hi < x → clampNat lo hi x = hi) := by
  refine ⟨fun below => ?_, fun least greatest => clampNat_of_within ⟨least, greatest⟩, fun above => ?_⟩
  · rw [clampNat, Nat.min_eq_left (below.le.trans h), Nat.max_eq_left below.le]
  · rw [clampNat, Nat.min_eq_right above.le, Nat.max_eq_right h]

theorem clampFNom_legal (x : Nat) : clampFNom x = 50 ∨ clampFNom x = 60 := by
  unfold clampFNom
  split
  · exact .inl rfl
  · exact .inr rfl

theorem clampFNom_of_legal (h : x = 50 ∨ x = 60) : clampFNom x = x := by
  rcases h with rfl | rfl <;> rfl

end

/-! The gaps between two values (R171). -/

section

variable {lo hi cap sag recover x : Nat}

theorem min_within (h : Within lo hi x) (le : lo ≤ cap) : Within lo cap (min x cap) :=
  ⟨Nat.le_min.mpr ⟨h.1, le⟩, Nat.min_le_right ..⟩

theorem lt_recoverAbove (sag recover : Nat) : sag < recoverAbove sag recover := by
  unfold recoverAbove
  split <;> omega

/-- A recover threshold that is raised lies in 610..990, as the sag threshold below it is then at least 600. -/
theorem recoverAbove_within (hs : sag ≤ 980) (hr : Within 600 1000 recover) :
    Within 600 1000 (recoverAbove sag recover) := by
  obtain ⟨least, greatest⟩ := hr
  unfold recoverAbove
  split
  · constructor <;> omega
  · exact ⟨least, greatest⟩

theorem recoverAbove_of_lt (h : sag < recover) : recoverAbove sag recover = recover := if_neg (Nat.not_le.mpr h)

end

/-! All the settings (R170, R171). -/

/-- The three cross-field clamps, each by its condition. -/
theorem clampCross_eq (c : Config.Settings) : clampCross c = { c with
    recoverThreshold := if c.recoverThreshold ≤ c.sagThreshold then c.sagThreshold + 10 else c.recoverThreshold
    vFloor := if c.vKnee - 100 < c.vFloor then c.vKnee - 100 else c.vFloor
    linkMin := if c.linkReady - 100 < c.linkMin then c.linkReady - 100 else c.linkMin } := by
  rw [clampCross, recoverAbove, min_comm c.vFloor, min_comm c.linkMin, min_def_lt, min_def_lt]

/-- Clamped settings lie in their ranges with the three gaps. -/
theorem settingsLegal_clamped (c : Config.Settings) : SettingsLegal (clampCross (clampRanges c)) where
  fNom := clampFNom_legal _
  vNom := clampNat_within (by decide) _
  pMax := clampNat_within (by decide) _
  vKnee := clampNat_within (by decide) _
  vFloor :=
    have knee : Within 1000 11000 (clampRanges c).vKnee := clampNat_within (by decide) _
    min_within (clampNat_within (by decide) _) (Nat.le_sub_of_add_le (le_trans (by decide) knee.1))
  k := clampNat_within (by decide) _
  cls := clampNat_within (by decide) _
  rating := clampNat_within (by decide) _
  sagThreshold := clampNat_within (by decide) _
  recoverThreshold :=
    have sag : Within 500 980 (clampRanges c).sagThreshold := clampNat_within (by decide) _
    recoverAbove_within sag.2 (clampNat_within (by decide) _)
  recoverAbove := lt_recoverAbove _ _
  rmsPersistence := clampNat_within (by decide) _
  instThreshold := clampNat_within (by decide) _
  instPersistence := clampNat_within (by decide) _
  recoverPersistence := clampNat_within (by decide) _
  uMax := clampNat_within (by decide) _
  turns := clampNat_within (by decide) _
  linkReady := clampNat_within (by decide) _
  linkMin :=
    have ready : Within 1000 11000 (clampRanges c).linkReady := clampNat_within (by decide) _
    min_within (clampNat_within (by decide) _) (Nat.le_sub_of_add_le (le_trans (by decide) ready.1))
  iTrip := clampNat_within (by decide) _
  rampLength := clampNat_within (by decide) _
  refAgeLimit := clampNat_within (by decide) _
  holdoverLimit := clampNat_within (by decide) _
  layoutCode := clampNat_within (by decide) _
  postTail := clampNat_within (by decide) _

section

variable {c : Config.Settings}

/-- The range clamps let legal settings stand: a gap below a partner in its range keeps to the fixed range. -/
theorem clampRanges_of_legal (h : SettingsLegal c) : clampRanges c = c := by
  have floor : Within 500 10900 c.vFloor := h.vFloor.mono (Nat.sub_le_sub_right h.vKnee.2 100)
  have linkMin : Within 500 10900 c.linkMin := h.linkMin.mono (Nat.sub_le_sub_right h.linkReady.2 100)
  rw [clampRanges, clampFNom_of_legal h.fNom, clampNat_of_within h.vNom, clampNat_of_within h.pMax,
    clampNat_of_within h.vKnee, clampNat_of_within floor, clampNat_of_within h.k, clampNat_of_within h.cls,
    clampNat_of_within h.rating, clampNat_of_within h.sagThreshold, clampNat_of_within h.recoverThreshold,
    clampNat_of_within h.rmsPersistence, clampNat_of_within h.instThreshold, clampNat_of_within h.instPersistence,
    clampNat_of_within h.recoverPersistence, clampNat_of_within h.uMax, clampNat_of_within h.turns,
    clampNat_of_within h.linkReady, clampNat_of_within linkMin, clampNat_of_within h.iTrip,
    clampNat_of_within h.rampLength, clampNat_of_within h.refAgeLimit, clampNat_of_within h.holdoverLimit,
    clampNat_of_within h.layoutCode, clampNat_of_within h.postTail]

/-- The cross-field clamps let settings with the three gaps stand. -/
theorem clampCross_of_legal (h : SettingsLegal c) : clampCross c = c := by
  rw [clampCross, recoverAbove_of_lt h.recoverAbove, Nat.min_eq_left h.vFloor.2, Nat.min_eq_left h.linkMin.2]

end

end Sys2Proof.Machine
end

section
/-! The settings that a load uses (R170, R171). -/

namespace Sys2Proof.Machine

/-- Settles O9: each range clamp by its three cases, the cross-field clamps by theirs, and legal settings both ways. -/
theorem clampedSettingsAreLegal : Obligations.ClampedSettingsAreLegal := by
  unfold Obligations.ClampedSettingsAreLegal
  refine ⟨fun c => ?ranges, clampCross_eq, settingsLegal_clamped, fun c legal => ?stands⟩
  case ranges =>
    intro u near
    refine ⟨fun below => if_pos below, fun above => if_neg (Nat.not_lt.mpr above), ?_⟩
    iterate 22 refine ⟨clampNat_nearest (by decide) _, ?_⟩
    exact clampNat_nearest (by decide) _
  case stands => rw [clampRanges_of_legal legal, clampCross_of_legal legal]

end Sys2Proof.Machine
end

section
/-! SUPPORT. The settings and the own digest through a reset, a load and an arrival: CFL's record stands, takes its
initial state, or takes what a load puts in force (R168, R173 to R175, R177, R178). -/

namespace Sys2Proof.Machine

variable {s u : State}

theorem ConfigurationSound.of_cfl (hs : ConfigurationSound s) (h : u.cfl = s.cfl) : ConfigurationSound u where
  settings := by simpa only [State.settings, h] using hs.settings
  digest := by simpa only [State.settings, h] using hs.digest

/-! CFL's initial state, after a reset (R177, R178). -/

theorem configurationSound_of_initial (h : u.cfl = Cfl.initial) : ConfigurationSound u :=
  configurationSound_reset.of_cfl (h.trans reset_cfl.symm)

theorem initialState_configuration (s : State) : ConfigurationSound (initialState s) :=
  configurationSound_of_initial rfl

/-- The reading of the straps and the start of a load leave the settings and the digest. -/
theorem startUp_configuration (x : BitVec 4) (hs : ConfigurationSound s) : ConfigurationSound (startUp x s) where
  settings := by simpa [startUp, readStraps, State.settings] using hs.settings
  digest := by simpa [startUp, readStraps, State.settings] using hs.digest

theorem carryOutReset_configuration (x : BitVec 4) (s : State) : ConfigurationSound (carryOutReset x s) :=
  startUp_configuration x (configurationSound_of_initial rfl)

/-! The end of a load (R173 to R175). -/

/-- Every load ends with legal settings: the defaults, or clamped ones (R170, R171, R173). -/
theorem loadImage_legal (image : List Byte) : SettingsLegal (loadImage image).settings := by
  rcases loadImage_cases image with ⟨reason, defaulted⟩ | accepted
  · rw [defaulted]
    exact settingsLegal_defaults
  · rw [accepted]
    exact settingsLegal_clamped (rawSettings image)

theorem endLoad_configuration {r : LoadResult} (legal : SettingsLegal r.settings) (hs : ConfigurationSound s) :
    ConfigurationSound (endLoad r s) := by
  unfold endLoad
  split
  · constructor <;> simp only [State.settings, comeIntoForce_cfl, cflInForce]
    exact legal
  · exact hs

/-! An arrival, which a soft reset can end (R132). -/

theorem arrive_configuration (k : ArrivalTaking) (n : Nat) (g : Option SampleSet) (hs : ConfigurationSound s) :
    ConfigurationSound (arrive k n g s) :=
  arrive_induct s ConfigurationSound k n g (hs.of_cfl (by simp)) (fun _ _ _ hv => hv.of_cfl (by simp))
    (fun x v _ _ _ => carryOutReset_configuration x v)

theorem deadlinePasses_configuration (k : ArrivalTaking) (hs : ConfigurationSound s) :
    ConfigurationSound (deadlinePasses k s) := by
  unfold deadlinePasses
  split
  · exact arrive_configuration k _ none (hs.of_cfl (by simp))
  · exact hs

theorem setArrives_configuration (t : Nat) (x : RawSet) (k : ArrivalTaking) (hs : ConfigurationSound s) :
    ConfigurationSound (setArrives t x k s) := by
  unfold setArrives
  split
  · split
    · exact (deadlinePasses_configuration k hs).of_cfl (by simp)
    · exact arrive_configuration k _ _ (hs.of_cfl (by simp))
  · exact hs.of_cfl (by simp)

/-! Every command. -/

theorem effect_configuration (c : Instr) (hs : ConfigurationSound s) : ConfigurationSound (effect c s) := by
  cases c <;> simp only [effect]
  case powerOn => exact initialState_configuration s
  case resetAsserted => exact initialState_configuration s
  case resetReleased t x =>
    split
    · exact startUp_configuration x ((initialState_configuration (s.moveTo t)).of_cfl rfl)
    · exact hs.of_cfl (by simp)
  case memoryNoAnswer t => exact endLoad_configuration settingsLegal_defaults (hs.of_cfl (by simp))
  case loadCompletion t image => exact endLoad_configuration (loadImage_legal image) (hs.of_cfl (by simp))
  case strobe => exact (deadlinePasses_configuration {} hs).of_cfl (by simp)
  case sampleSetArrival t x k => exact setArrives_configuration t x k hs
  case arrivalDeadline k => exact deadlinePasses_configuration k hs
  case softResetCarriedOut t x =>
    split
    · exact carryOutReset_configuration x _
    · exact hs.of_cfl (by simp)
  all_goals
    refine hs.of_cfl ?_
    (repeat' split) <;> simp

end Sys2Proof.Machine
end

section
/-! The settings in force, through every step (R170, R171, R175). -/

namespace Sys2Proof.Machine

/-- Settles O11: every command keeps the settings legal and the digest theirs, whatever the queue. -/
theorem configurationSoundKept : Obligations.ConfigurationSoundKept := by
  unfold Obligations.ConfigurationSoundKept
  intro s u hs hu
  exact step_induct_effect ConfigurationSound (fun _ _ h => h.of_cfl rfl) (fun c _ h => effect_configuration c h) hs hu

end Sys2Proof.Machine
end

section
/-! SUPPORT. The CRC register: a bit that enters it, and its way through its own two bytes (R179). -/

namespace Sys2Proof.Machine

/-- The bit that leaves the register against the bit that enters it (R179). -/
theorem crcBit_eq (r : Half) (bit : Bool) :
    crcBit r bit = if r.getLsbD 15 ≠ bit then (r <<< 1) ^^^ 0x1021#16 else r <<< 1 := by
  have leaving : r.msb = r.getLsbD 15 := BitVec.msb_eq_getLsbD_last r
  simp only [crcBit, leaving, bne_iff_ne]

theorem crcBit_of_leaving {r : Half} {bit : Bool} (h : r.getLsbD 15 = bit) : crcBit r bit = r <<< 1 := by
  rw [crcBit_eq, if_neg (not_not.mpr h)]

theorem crc16_append (xs ys : List Byte) : crc16 (xs ++ ys) = ys.foldl crcByte (crc16 xs) := by
  simp only [crc16, List.foldl_append]

/-- A register that has moved by `k` places meets its own next bit: it moves by one more, and no XOR is made. -/
theorem crcBit_own_bit (r : Half) {k : Nat} (hk : k ≤ 15) :
    crcBit (r <<< k) (r.getLsbD (15 - k)) = r <<< (k + 1) := by
  have leaving : (r <<< k).getLsbD 15 = r.getLsbD (15 - k) := by
    simp only [BitVec.getLsbD_shiftLeft, Nat.not_lt.mpr hk, decide_true, decide_false, Bool.not_false, Bool.true_and,
      Nat.reduceLT]
  rw [crcBit_of_leaving leaving, ← BitVec.shiftLeft_add]

/-- The register shifts out as its own bits enter, most significant first. -/
theorem foldl_crcBit_own_bits (r : Half) {k n : Nat} (h : k + n ≤ 16) :
    (List.range' k n).foldl (fun q j => crcBit q (r.getLsbD (15 - j))) (r <<< k) = r <<< (k + n) := by
  induction n generalizing k with
  | zero => rfl
  | succ n ih =>
    have places : k + 1 + n = k + (n + 1) := by omega
    rw [List.range'_succ, List.foldl_cons, crcBit_own_bit r (by omega), ih (by omega), places]

/-- The register ends at 0 where it goes on through its own two bytes (R179). -/
theorem crc16_own_bytes (bytes : List Byte) : crc16 (bytes ++ halfBytes (crc16 bytes)) = 0 := by
  rw [crc16_append]
  generalize crc16 bytes = r
  calc (halfBytes r).foldl crcByte r
    _ = (List.range' 0 16).foldl (fun q j => crcBit q (r.getLsbD (15 - j))) (r <<< 0) := by
      simp only [halfBytes, crcByte, List.range', List.foldl_cons, List.foldl_nil, BitVec.getLsbD_extractLsb',
        BitVec.shiftLeft_zero, Nat.reduceAdd, Nat.reduceSub, Nat.reduceLT, decide_true, Bool.true_and]
    _ = r <<< 16 := foldl_crcBit_own_bits r (by decide)
    _ = 0 := BitVec.shiftLeft_eq_zero (Nat.le_refl 16)

end Sys2Proof.Machine
end

section
/-! SUPPORT. The block by the positions of R180: the bytes of an assembled block, the fields that share a byte, and the
block read back from its positions; validity and malformation (R37, R180). -/

namespace Sys2Proof.Machine

/-! The bytes that hold more than one field. -/

theorem fields_of_byte6 (restorer : BitVec 3) (lock cls : BitVec 2) (defaultsFlag : Bool) :
    let b : Byte := restorer ++ lock ++ cls ++ BitVec.ofBool defaultsFlag
    b.extractLsb' 5 3 = restorer ∧ b.extractLsb' 3 2 = lock ∧ b.extractLsb' 1 2 = cls ∧
    b.getLsbD 0 = defaultsFlag := by
  simp (disch := decide) only [BitVec.extractLsb'_append_eq_of_le, BitVec.extractLsb'_append_eq_of_add_le,
    Nat.reduceSub, BitVec.extractLsb'_eq_self, true_and]
  simp only [BitVec.getLsbD_append, BitVec.getLsbD_ofBool, Nat.reduceLT, if_true, decide_true, Bool.true_and]

theorem fields_of_byte7 (active a b c resag quiesce : Bool) (eventClass : BitVec 2) :
    let x : Byte := BitVec.ofBool active ++ BitVec.ofBool a ++ BitVec.ofBool b ++ BitVec.ofBool c ++
      BitVec.ofBool resag ++ BitVec.ofBool quiesce ++ eventClass
    x.getLsbD 7 = active ∧ x.getLsbD 6 = a ∧ x.getLsbD 5 = b ∧ x.getLsbD 4 = c ∧ x.getLsbD 3 = resag ∧
    x.getLsbD 2 = quiesce ∧ x.extractLsb' 0 2 = eventClass := by
  simp (disch := decide) only [BitVec.getLsbD_append, BitVec.getLsbD_ofBool,
    BitVec.extractLsb'_append_eq_of_add_le, BitVec.extractLsb'_eq_self]
  simp

theorem fields_of_byte22 (full : BitVec 4) (mute : Bool) :
    let b : Byte := full ++ 0#3 ++ BitVec.ofBool mute
    b.extractLsb' 4 4 = full ∧ b.extractLsb' 1 3 = 0#3 ∧ b.getLsbD 0 = mute := by
  simp (disch := decide) only [BitVec.extractLsb'_append_eq_of_le, BitVec.extractLsb'_append_eq_of_add_le,
    Nat.reduceSub, BitVec.extractLsb'_eq_self, true_and]
  simp only [BitVec.getLsbD_append, BitVec.getLsbD_ofBool, Nat.reduceLT, if_true, decide_true, Bool.true_and]

/-! The positions. -/

/-- A block's fields stand in these bytes at the positions of R180. -/
def BlockPlaced (bytes : List Byte) (b : Block) : Prop :=
  (byteAt bytes 1).extractLsb' 4 4 = b.kind ∧ (byteAt bytes 1).extractLsb' 0 4 = b.slot ∧
  wordAt bytes 2 = b.frameNumber ∧
  (byteAt bytes 6).extractLsb' 5 3 = b.fast.restorer ∧ (byteAt bytes 6).extractLsb' 3 2 = b.fast.lock ∧
  (byteAt bytes 6).extractLsb' 1 2 = b.slow.cls ∧ (byteAt bytes 6).getLsbD 0 = b.slow.defaultsFlag ∧
  (byteAt bytes 7).getLsbD 7 = b.fast.active ∧ (byteAt bytes 7).getLsbD 6 = b.fast.sagNow.a ∧
  (byteAt bytes 7).getLsbD 5 = b.fast.sagNow.b ∧ (byteAt bytes 7).getLsbD 4 = b.fast.sagNow.c ∧
  (byteAt bytes 7).getLsbD 3 = b.fast.resag ∧ (byteAt bytes 7).getLsbD 2 = b.fast.quiesce ∧
  (byteAt bytes 7).extractLsb' 0 2 = b.fast.eventClass ∧
  halfAt bytes 8 = b.fast.demand ∧ halfAt bytes 10 = b.slow.rating ∧ halfAt bytes 12 = b.fast.grant ∧
  halfAt bytes 14 = b.fast.bus ∧ halfAt bytes 16 = b.fast.link ∧ halfAt bytes 18 = b.slow.digest ∧
  halfAt bytes 20 = b.fast.eventLow ∧
  (byteAt bytes 22).extractLsb' 4 4 = b.fast.full ∧ (byteAt bytes 22).getLsbD 0 = b.fast.mute ∧
  byteAt bytes 23 = b.fast.rMinPercent ∧ wordAt bytes 24 ++ halfAt bytes 28 = b.fast.request

/-- Received bytes are decoded by the positions, whatever they are. -/
theorem decodeBlock_placed (bytes : List Byte) : BlockPlaced bytes (decodeBlock bytes) := by
  unfold BlockPlaced
  repeat' apply And.intro
  all_goals rfl

/-- The positions determine the block, its two kinds being the one that the bytes carry. -/
theorem BlockPlaced.decode_eq {bytes : List Byte} {b : Block} (h : BlockPlaced bytes b)
    (hk : b.slow.kind = b.kind) : decodeBlock bytes = b := by
  obtain ⟨kind, slot, frameNumber, slow, fast⟩ := b
  obtain ⟨slowKind, cls, rating, digest, defaultsFlag⟩ := slow
  obtain ⟨restorer, lock, active, ⟨a, b, c⟩, demand, grant, bus, link, eventLow, full, rMinPercent, eventClass,
    resag, quiesce, mute, request⟩ := fast
  obtain ⟨rfl, rfl, rfl, rfl, rfl, rfl, rfl, rfl, rfl, rfl, rfl, rfl, rfl, rfl, rfl, rfl, rfl, rfl, rfl, rfl, rfl,
    rfl, rfl, rfl, rfl⟩ := h
  obtain rfl : slowKind = (byteAt bytes 1).extractLsb' 4 4 := hk
  rfl

/-- A request is its upper word and its lower half (R180). -/
theorem request_append (f : BitVec 48) : f.extractLsb' 16 32 ++ f.extractLsb' 0 16 = f :=
  BitVec.extractLsb'_append_extractLsb' (w := 32) (len := 16)

/-- What stands at each position of an assembled block, sync and CRC apart (R180). -/
theorem encodeBlock_at (b : Block) :
    let x := encodeBlock b
    byteAt x 1 = b.kind ++ b.slot ∧ wordAt x 2 = b.frameNumber ∧
    byteAt x 6 = b.fast.restorer ++ b.fast.lock ++ b.slow.cls ++ BitVec.ofBool b.slow.defaultsFlag ∧
    byteAt x 7 = BitVec.ofBool b.fast.active ++ BitVec.ofBool b.fast.sagNow.a ++ BitVec.ofBool b.fast.sagNow.b ++
      BitVec.ofBool b.fast.sagNow.c ++ BitVec.ofBool b.fast.resag ++ BitVec.ofBool b.fast.quiesce ++
      b.fast.eventClass ∧
    halfAt x 8 = b.fast.demand ∧ halfAt x 10 = b.slow.rating ∧ halfAt x 12 = b.fast.grant ∧
    halfAt x 14 = b.fast.bus ∧ halfAt x 16 = b.fast.link ∧ halfAt x 18 = b.slow.digest ∧
    halfAt x 20 = b.fast.eventLow ∧ byteAt x 22 = b.fast.full ++ 0#3 ++ BitVec.ofBool b.fast.mute ∧
    byteAt x 23 = b.fast.rMinPercent ∧ wordAt x 24 ++ halfAt x 28 = b.fast.request := by
  have word_append := wordAt_wordBytes
  simp only [wordAt, halfAt, byteAt, wordBytes, List.getD_cons_succ, List.getD_cons_zero, Nat.reduceAdd] at word_append
  simp only [wordAt, halfAt, byteAt, encodeBlock, halfBytes, wordBytes, List.cons_append, List.nil_append,
    List.getD_cons_succ, List.getD_cons_zero, Nat.reduceAdd, bytes_append, word_append, request_append, and_self]

/-- A block is assembled by the positions. -/
theorem encodeBlock_placed (b : Block) : BlockPlaced (encodeBlock b) b := by
  obtain ⟨byte1, frameNumber, byte6, byte7, demand, rating, grant, bus, link, digest, eventLow, byte22, rMinPercent,
    request⟩ := encodeBlock_at b
  obtain ⟨restorer, lock, cls, defaultsFlag⟩ :=
    fields_of_byte6 b.fast.restorer b.fast.lock b.slow.cls b.slow.defaultsFlag
  obtain ⟨active, sagA, sagB, sagC, resag, quiesce, eventClass⟩ :=
    fields_of_byte7 b.fast.active b.fast.sagNow.a b.fast.sagNow.b b.fast.sagNow.c b.fast.resag b.fast.quiesce
      b.fast.eventClass
  obtain ⟨full, -, mute⟩ := fields_of_byte22 b.fast.full b.fast.mute
  rw [BlockPlaced, byte1, byte6, byte7, byte22]
  exact ⟨BitVec.extractLsb'_append_eq_left, BitVec.extractLsb'_append_eq_right, frameNumber, restorer, lock, cls,
    defaultsFlag, active, sagA, sagB, sagC, resag, quiesce, eventClass, demand, rating, grant, bus, link, digest,
    eventLow, full, mute, rMinPercent, request⟩

/-- Bits 3 to 1 of byte 22 are sent as 0 (R180). -/
theorem encodeBlock_spare (b : Block) : (byteAt (encodeBlock b) 22).extractLsb' 1 3 = 0 := by
  obtain ⟨-, -, -, -, -, -, -, -, -, -, -, byte22, -⟩ := encodeBlock_at b
  obtain ⟨-, spare, -⟩ := fields_of_byte22 b.fast.full b.fast.mute
  rw [byte22]
  exact spare

/-! Validity (R37). -/

theorem blockValid_iff (bytes : List Byte) : blockValid bytes = true ↔
    bytes.length = 32 ∧ byteAt bytes 0 = 0xA5#8 ∧ crc16 ((bytes.drop 1).take 29) = halfAt bytes 30 := by
  simp only [blockValid, Bool.and_eq_true, decide_eq_true_eq, beq_iff_eq, and_assoc]

theorem encodeBlock_length (b : Block) : (encodeBlock b).length = 32 := by
  simp only [encodeBlock, halfBytes, wordBytes, List.cons_append, List.nil_append, List.length_cons, List.length_nil]

/-- The CRC that an assembled block carries is the one over its bytes 1 to 29. -/
theorem encodeBlock_crc (b : Block) :
    halfAt (encodeBlock b) 30 = crc16 (((encodeBlock b).drop 1).take 29) := by
  simp only [halfAt, byteAt, encodeBlock, halfBytes, wordBytes, List.cons_append, List.nil_append,
    List.getD_cons_succ, List.getD_cons_zero, Nat.reduceAdd, bytes_append, List.drop_succ_cons, List.drop_zero,
    List.take_succ_cons, List.take_zero]

theorem encodeBlock_valid (b : Block) : blockValid (encodeBlock b) = true :=
  (blockValid_iff _).mpr ⟨encodeBlock_length b, rfl, (encodeBlock_crc b).symm⟩

theorem decode_encode {b : Block} (hk : b.slow.kind = b.kind) : decodeBlock (encodeBlock b) = b :=
  (encodeBlock_placed b).decode_eq hk

theorem blockMalformed_iff (b : Block) :
    blockMalformed b = true ↔ (b.kind ≠ 0 ∧ b.kind ≠ 1) ∨ 12 ≤ b.slot.toNat := by
  have unknown : 1 < b.kind.toNat ↔ b.kind ≠ 0 ∧ b.kind ≠ 1 := by bv_omega
  simp only [blockMalformed, Bool.or_eq_true, decide_eq_true_eq, unknown]

end Sys2Proof.Machine
end

section
/-! The block both ways, its validity, the own block, and the CRC (R15, R29, R37, R49, R78, R84, R109, R155, R179,
R180). -/

namespace Sys2Proof.Machine

theorem eventActive_eq_decide (s : State) :
    eventActive s = decide (s.rsq.state = .inject ∨ s.rsq.state = .release) := by
  simp only [eventActive, beq_eq_decide, Bool.decide_or]

/-- The own fast fields, the event's by the restorer's state (R49, R78, R109). -/
theorem ownFast_eq (s : State) : ownFast s =
    { ownFast s with
      active := decide (s.rsq.state = .inject ∨ s.rsq.state = .release)
      eventClass := if s.rsq.state = .inject ∨ s.rsq.state = .release then s.evc.eventClass.code else 0 } := by
  have active : (ownFast s).active = decide (s.rsq.state = .inject ∨ s.rsq.state = .release) :=
    eventActive_eq_decide s
  have eventClass : (ownFast s).eventClass =
      if s.rsq.state = .inject ∨ s.rsq.state = .release then s.evc.eventClass.code else 0 :=
    if_congr (eventActive_iff s) rfl rfl
  rw [← active, ← eventClass]

/-- Settles O52: the block by its positions, valid and read back as assembled; the own block's values; the CRC. -/
theorem blockDecodesAsAssembled : Obligations.BlockDecodesAsAssembled := by
  unfold Obligations.BlockDecodesAsAssembled
  refine ⟨fun own s => ⟨rfl, rfl, rfl, rfl, ownFast_eq s⟩, fun b hk => ⟨encodeBlock_valid b, decode_encode hk⟩,
    rfl, crc16_own_bytes, crcBit_eq, fun bytes b => crc16_append bytes [b], by decide +kernel,
    ⟨fun bytes => ⟨decodeBlock_placed bytes, rfl⟩,
      fun b => ⟨encodeBlock_placed b, encodeBlock_length b, rfl, encodeBlock_spare b, encodeBlock_crc b⟩⟩,
    blockValid_iff, blockMalformed_iff⟩

end Sys2Proof.Machine
end

section
/-! SUPPORT. The canonical form as a property of the store, kept by each of CST's operations: the cells change by writes
of bytes alone (R137, R138, R143; log 23). -/

namespace Sys2Proof.Machine

/-- The store's memory is in its canonical form. -/
def StoreCanonical (c : Cst) : Prop := Memory.wf c.mem = true

theorem memoryCanonical_iff (s : State) : MemoryCanonical s ↔ StoreCanonical s.cst := Iff.rfl

variable {c d : Cst} {s : State}

/-- The form speaks of the cells alone. -/
theorem StoreCanonical.of_mem (hc : StoreCanonical c) (mem : d.mem = c.mem) : StoreCanonical d := by
  unfold StoreCanonical
  rwa [mem]

theorem openSlot_canonical (hc : StoreCanonical c) (l : Layout) (m : Making) (tail : Option Nat)
    (delayed test : Bool) : StoreCanonical (openSlot l m tail delayed test c) :=
  Memory.wf_openSlot hc l m tail delayed test

theorem missCapture_canonical (hc : StoreCanonical c) : StoreCanonical (missCapture c) :=
  hc.of_mem rfl

theorem fileRecord_canonical (hc : StoreCanonical c) (l : Layout) (m : Summary) : StoreCanonical (fileRecord l m c) :=
  Memory.wf_fileRecord hc l m

/-- An opening is made in the fill slot, or missed where the ring is full (R139). -/
theorem openOrMiss_canonical (hc : StoreCanonical c) (l : Layout) (m : Making) (tail : Option Nat)
    (delayed test : Bool) :
    StoreCanonical (if ringFull c l then missCapture c else openSlot l m tail delayed test c) := by
  split
  · exact missCapture_canonical hc
  · exact openSlot_canonical hc l m tail delayed test

/-- A set is written in a slot with room for it, and else no cell changes (R137, R141). -/
theorem captureSet_canonical (x : SampleSet) (hs : StoreCanonical s.cst) : StoreCanonical (captureSet x s).cst := by
  unfold captureSet
  dsimp only
  split
  · rename_i l f _ _
    rcases Decidable.em (f.written < l.sets) with room | noRoom
    · have written := Memory.wf_writeBytes hs (setAddr l s.cst.fill f.written) (setBytes ⟨x.v, x.i⟩)
      simpa [StoreCanonical, room] using written
    · exact hs.of_mem (by simp [noRoom])
  · exact hs.of_mem rfl

theorem captureOnset_canonical (hs : StoreCanonical s.cst) : StoreCanonical (captureOnset s).cst := by
  unfold captureOnset
  dsimp only
  split
  · exact missCapture_canonical hs
  · exact openOrMiss_canonical hs _ _ _ _ _
  · split
    · exact openSlot_canonical hs _ _ _ _ _
    · split
      · exact hs.of_mem rfl
      · exact missCapture_canonical hs

theorem complete_canonical (hs : StoreCanonical s.cst) : StoreCanonical (complete s).cst := by
  unfold complete
  split
  · dsimp only
    split
    · exact openOrMiss_canonical (fileRecord_canonical hs _ _) _ _ _ _ _
    · exact fileRecord_canonical hs _ _
  · exact hs

theorem captureSoftReset_canonical (hs : StoreCanonical s.cst) : StoreCanonical (captureSoftReset s) := by
  have cleared : ∀ c : Cst, StoreCanonical c → StoreCanonical { c with queued := none, history := zeroHistory } :=
    fun _ hc => hc.of_mem rfl
  unfold captureSoftReset
  split
  · exact cleared _ (fileRecord_canonical hs _ _)
  · exact cleared _ hs

/-- The canonical form is kept by every operation of CST (log 23). -/
theorem storeCanonical_invariant : StoreInvariant StoreCanonical where
  initial := Memory.wf_reset
  set x _ hs := captureSet_canonical x hs
  onset _ hs := captureOnset_canonical hs
  classFields _ hs := hs.of_mem rfl
  ended _ hs := hs.of_mem rfl
  released _ hs := hs.of_mem rfl
  completed _ hs := complete_canonical hs
  softReset _ hs := captureSoftReset_canonical hs
  test l _ _ _ hs := openOrMiss_canonical hs l _ _ _ _
  freed _ _ hc := hc.of_mem rfl
  layoutFixed _ _ hc := hc.of_mem rfl

end Sys2Proof.Machine
end

section
/-! The capture memory's canonical form through every step (log 23). -/

namespace Sys2Proof.Machine

/-- Settles O43: the form speaks of the store alone, and each of CST's operations keeps it. -/
theorem memoryCanonicalKept : Obligations.MemoryCanonicalKept := by
  unfold Obligations.MemoryCanonicalKept
  intro s u hs hu
  rw [memoryCanonical_iff] at hs ⊢
  exact storeCanonical_invariant.step hs hu

end Sys2Proof.Machine
end

section
/-! The queue: the front command, and the idle step (log 1). -/

namespace Sys2Proof.Machine

/-- A step with a command at the front of the queue (log 1). -/
theorem step_of_front {c : Instr} {rest : List Instr} {s : State} (h : s.pending = c :: rest) :
    step s = exec c { s with pending := rest } := by
  simp only [step, h]

/-- A step on an empty queue (log 1). -/
theorem step_of_empty {s : State} (h : s.pending = []) : step s = .next s := by
  simp only [step, h]

/-- Settles O1: the queue has a front command or is empty, and a step is given for each. -/
theorem stepRunsFrontCommand : Obligations.StepRunsFrontCommand := by
  unfold Obligations.StepRunsFrontCommand
  exact ⟨fun _ _ _ => step_of_front, fun _ => step_of_empty⟩

end Sys2Proof.Machine
end
